-- ==== Sys2Proof/Word.lean ====
section
/-! DEFINITION. The word of the FD840: every register, every Caldera word and every engine register is 40 bits (R7,
R175), and the byte of images and CAN frames. -/

namespace Sys2Proof

/-- A 40-bit word (R7). -/
abbrev Word := BitVec 40

/-- A byte of an image or of a CAN frame. -/
abbrev Byte := BitVec 8

end Sys2Proof
end

