-- ==== Sys2Proof/Syntax.lean ====
section
/-! DEFINITION. The commands of the block: one constructor for each row of the opcode table, with its operands. -/

namespace Sys2Proof

/-- The answer of a memory's error-correcting code, a fact of the outside world that a command states (R178, R319). -/
inductive Ecc where
  | ok | corrected | uncorrectable
  deriving DecidableEq, Repr, Inhabited

/-- How a read of a word of one journal copy goes (R312, R319): without an error, corrected, uncorrectable, or
uncorrectable in a bank that cannot be rewritten. -/
inductive CopyRead where
  | ok | corrected | uncorrectable | failed
  deriving DecidableEq, Repr, Inhabited

/-- The supplies that the control die watches (R409). -/
inductive Supply where
  | vcore | vdda | vio
  deriving DecidableEq, Repr, Inhabited

/-- Causes of a warm reset (R412). -/
inductive WarmCause where
  | pin | brownout | clock
  deriving DecidableEq, Repr, Inhabited

/-- A Sinter word whose two boot reads do not both return the programmed value (R390): the data bits that the high and
the low sense reference give, and whether a read has an uncorrectable error. -/
structure OtpRead where
  addr : Fin 1024
  hi : Word
  lo : Word
  hiBad : Bool := false
  loBad : Bool := false
  deriving DecidableEq, Repr, Inhabited

/-- Who writes a register (R9, R467). -/
inductive Master where
  | host | journal | warden
  deriving DecidableEq, Repr, Inhabited

/-- The command edges of a leg (R81, R90): the counter reaches HON or HOFF, or a step of a refresh sequence. -/
inductive PwmEdge where
  | hon | hoff | refHighOff | refLowOff
  deriving DecidableEq, Repr, Inhabited

/-- An error that an attempt to send meets (R346, R356, R359): its kind as in CAN_STAT.LEC, whether it lies in the data
phase, whether a dominant bit was read after arbitration while a recessive one was sent, whether it is a stuff or an
acknowledgement error that ISO 11898-1 exempts from counting, how many further times the error frame adds 8 to TEC, and the
transmitter delay, where the attempt came as far as its measurement (R341). -/
structure TxError where
  kind : Fin 8
  dataPhase : Bool := false
  collision : Bool := false
  exempt : Bool := false
  more : Nat := 0
  tdcv : Option Nat := none
  deriving DecidableEq, Repr, Inhabited

/-- How an attempt to send is lost (R346): arbitration, or an error. -/
inductive TxLoss where
  | arbitration
  | error (e : TxError)
  deriving DecidableEq, Repr, Inhabited

/-- The end of a frame that was sent: the transmitter delay, where it was measured (R341); and what an overload flag behind it adds:
how many times 8 to TEC (R356), and the error that it met, with the data phase of LECD. -/
structure TxEnd where
  tdcv : Option Nat := none
  more : Nat := 0
  kind : Option (Fin 8) := none
  deriving DecidableEq, Repr, Inhabited

/-- What an error frame adds to the counter of a receiver (R356): 1 for its first error or not, 8 for each further event of
ISO 11898-1. -/
structure RxIncrement where
  first : Bool := true
  more : Nat := 0
  deriving DecidableEq, Repr, Inhabited

/-- A write of CAN_CTL.HALT (R358), and whether a frame of another node is then on the bus. -/
structure HaltWrite where
  halt : Bool
  busy : Bool := false
  deriving DecidableEq, Repr, Inhabited

/-- A frame on a CAN bus, with the time-base stamp of its start of frame (R342, R354). -/
structure CanFrame where
  id : BitVec 29
  xtd : Bool
  fdf : Bool
  brs : Bool
  esi : Bool
  rtr : Bool
  dlc : BitVec 4
  data : List Byte
  stamp : Word
  deriving DecidableEq, Repr, Inhabited

/-- The issue of one engine instruction (R201): the engine, the fields D, A, B and X of its word, and the answers of
the memories' error correction for its fetch and for its data access (R178). -/
structure Issue where
  eng : Fin 10
  d : Fin 16
  a : Fin 16
  b : Fin 16
  x : BitVec 22
  fetch : Ecc := .ok
  data : Ecc := .ok
  deriving DecidableEq, Repr, Inhabited

/-- A journal entry as the journal engine executes it (R290, R304): source, sequence, axis mask, whether a DONE report
is wanted, and its arguments. -/
structure JCmd where
  src : BitVec 8
  seq : BitVec 24
  mask : BitVec 8
  reqDone : Bool
  arg0 : Word
  arg1 : Word
  deriving DecidableEq, Repr, Inhabited

/-- The commands, in the order of the table. -/
inductive Instr where
  /-- POWER_ON_RESET (R412). -/
  | powerOnReset
  /-- SUPPLY_MONITOR_CROSSING (R409). -/
  | supplyMonitorCrossing (sup : Supply) (reset : Bool) (below : Bool)
  /-- WARM_RESET (R412). -/
  | warmReset (cause : WarmCause)
  /-- PLL_LOCK_LOSS (R410). -/
  | pllLockLoss
  /-- RST_N_LOW (R414). -/
  | rstNLow (ns : Nat)
  /-- RESET_RELEASE (R410). -/
  | resetRelease (bootHigh : Bool) (reads : List OtpRead)
  /-- LINKDOWN (R413). -/
  | linkdown
  /-- SUPERVISOR_TIMEOUT (R415). -/
  | supervisorTimeout
  /-- LOCKSTEP_MISMATCH (R383). -/
  | lockstepMismatch (cause : Word)
  /-- CALDERA_INIT_DONE (R318). -/
  | calderaInitDone
  /-- HOST_PORT_READY (R373). -/
  | hostPortReady
  /-- IMAGE_LOAD (R54). -/
  | imageLoad (copy : List Byte)
  /-- SYS_IMGPUSH_GO (R31). -/
  | sysImgpushGo (w : Word)
  /-- SEAL (R57). -/
  | seal
  /-- VENT_CONFIG_CONFIRM (R57). -/
  | ventConfigConfirm (same : Bool)
  /-- VENT_CONFIG_TIMEOUT (R57). -/
  | ventConfigTimeout
  /-- ROLLBACK_ADVANCE (R56). -/
  | rollbackAdvance
  /-- GEYSER_TICK (R18). -/
  | geyserTick
  /-- PROG (R179). -/
  | prog (slot : Fin 32)
  /-- CKPT (R196). -/
  | ckpt (slot : Fin 32)
  /-- JOURNAL (R304). -/
  | journal (slot : Fin 32) (m14 : CopyRead) (m15 : CopyRead)
  /-- HEARTBEAT (R15). -/
  | heartbeat (slot : Fin 32)
  /-- CANTX (R344). -/
  | cantx (slot : Fin 32)
  /-- MARK (R64). -/
  | mark (slot : Fin 32)
  /-- GEY_COMMIT_GO (R69). -/
  | geyCommitGo (t : Nat)
  /-- COMMIT_VALIDATION_DONE (R69). -/
  | commitValidationDone
  /-- GEY_COMMIT_CANCEL (R71). -/
  | geyCommitCancel
  /-- SYNCIN_EDGE (R73). -/
  | syncinEdge (t : Nat)
  /-- SYNCIN_TIMEOUT (R74). -/
  | syncinTimeout
  /-- CARRIER_BOUNDARY (R80). -/
  | carrierBoundary (leg : Fin 24)
  /-- GATE_TURN_ON (R81). -/
  | gateTurnOn (leg : Fin 28) (high : Bool) (bstMv : Nat) (early : Bool)
  /-- CROSS_CONDUCTION_INTERLOCK (R86). -/
  | crossConductionInterlock (leg : Fin 24)
  /-- SHORT_HIGH_REFRESH (R92). -/
  | shortHighRefresh (leg : Fin 24)
  /-- BRAKE_COMPARATOR_ON (R93). -/
  | brakeComparatorOn (lb : Fin 4)
  /-- BRAKE_COMPARATOR_OFF (R93). -/
  | brakeComparatorOff (lb : Fin 4)
  /-- VDS_DETECTION (R107). -/
  | vdsDetection (leg : Fin 24) (high : Bool) (stamp : Nat)
  /-- BLANKING_END (R106). -/
  | blankingEnd (leg : Fin 28) (high : Bool) (present : Bool) (stamp : Nat)
  /-- BRAKE_SHORT_DETECTION (R112). -/
  | brakeShortDetection (lb : Fin 4) (stamp : Nat)
  /-- BRAKE_SC_HOLD_END (R112). -/
  | brakeScHoldEnd (lb : Fin 4)
  /-- BSTUV (R105). -/
  | bstuv (leg : Fin 24)
  /-- TRIP_LINE (R110). -/
  | tripLine (axis : Fin 8)
  /-- VDRV_MONITOR (R101). -/
  | vdrvMonitor (high : Bool) (active : Bool)
  /-- VDRV_UVLO (R102). -/
  | vdrvUvlo
  /-- VENT_RESET_RELEASE (R102). -/
  | ventResetRelease
  /-- VENT_HEARTBEAT_RX (R417). -/
  | ventHeartbeatRx (crcOk : Bool) (vdrv : BitVec 10) (iFrame : Nat)
  /-- HEARTBEAT_TIMEOUT (R16). -/
  | heartbeatTimeout
  /-- STATUS_PACKET (R423). -/
  | statusPacket (crcOk : Bool)
  /-- STATUS_PACKET_TIMEOUT (R424). -/
  | statusPacketTimeout
  /-- STOP_PACKET (R421). -/
  | stopPacket (axis : Fin 8)
  /-- DIODE_READING (R427). -/
  | diodeReading (ok : Bool) (temp : BitVec 12)
  /-- ARM_REQ (R418). -/
  | armReq (axis : Fin 8) (n1 : BitVec 32)
  /-- ARM_CHAL (R418). -/
  | armChal (axis : Fin 8) (n1 n2 : BitVec 32)
  /-- ARM_CONF (R418). -/
  | armConf (axis : Fin 8) (n1 n2 : BitVec 32)
  /-- ARM_ACK (R418). -/
  | armAck (axis : Fin 8)
  /-- ARM_NAK (R419). -/
  | armNak (axis : Fin 8) (reason : Fin 7)
  /-- ARM_EXCHANGE_TIMEOUT (R418). -/
  | armExchangeTimeout
  /-- FAULT_CLEAR_CONFIRM (R116). -/
  | faultClearConfirm
  /-- VNT_FCLR_GO (R116). -/
  | vntFclrGo (w : Word)
  /-- ADC_SAMPLE (R123). -/
  | adcSample (bank : Fin 16) (entry : Fin 16) (raw : BitVec 14) (t : Nat)
  /-- REF_OK_RISE (R135). -/
  | refOkRise (pair : Fin 8)
  /-- REF_OK_FALL (R137). -/
  | refOkFall (pair : Fin 8)
  /-- REF_LATE (R136). -/
  | refLate (pair : Fin 8)
  /-- ADC_CAL_FREEZE (R140). -/
  | adcCalFreeze (bank : Fin 16) (on : Bool)
  /-- ADC_CAL_RESTART (R140). -/
  | adcCalRestart (bank : Fin 16)
  /-- COR_DIAG_WRITE (R143). -/
  | corDiagWrite (ch : Fin 96) (w : Word)
  /-- SAMPLE_PAIR_COMPLETE (R160). -/
  | samplePairComplete (unit : Fin 8) (tol : Fin 3) (t : Nat)
  /-- REARM (R164). -/
  | rearm (unit : Fin 8)
  /-- WINDOW_EDGE (R238). -/
  | windowEdge (axis : Fin 8) (t : Nat)
  /-- CATCH_WINDOW_END (R255). -/
  | catchWindowEnd (axis : Fin 8)
  /-- BRAKE_FLOAT_START (R260). -/
  | brakeFloatStart (axis : Fin 8)
  /-- BRAKE_EVALUATION (R261). -/
  | brakeEvaluation (axis : Fin 8)
  /-- BRAKE_TIMEOUT (R262). -/
  | brakeTimeout (axis : Fin 8)
  /-- START_ATTEMPT_FAIL (R259). -/
  | startAttemptFail (axis : Fin 8)
  /-- RETRY_DELAY_END (R259). -/
  | retryDelayEnd (axis : Fin 8)
  /-- REACQ_TIMEOUT (R264). -/
  | reacqTimeout (axis : Fin 8)
  /-- RAMP_TIMEOUT (R267). -/
  | rampTimeout (axis : Fin 8)
  /-- NOP (R211). -/
  | nop (i : Issue)
  /-- HALT (R211). -/
  | halt (i : Issue)
  /-- BR (R208). -/
  | br (i : Issue)
  /-- CALL (R209). -/
  | call (i : Issue)
  /-- RET (R209). -/
  | ret (i : Issue)
  /-- LOOPI (R210). -/
  | loopi (i : Issue)
  /-- MOV (R212). -/
  | mov (i : Issue)
  /-- LDI (R212). -/
  | ldi (i : Issue)
  /-- LDIH (R212). -/
  | ldih (i : Issue)
  /-- GETS (R213). -/
  | gets (i : Issue)
  /-- PUTS (R213). -/
  | puts (i : Issue)
  /-- PSET (R212). -/
  | pset (i : Issue)
  /-- LD (R214). -/
  | ld (i : Issue)
  /-- ST (R214). -/
  | st (i : Issue)
  /-- LDF (R215). -/
  | ldf (i : Issue) (won : Bool)
  /-- STF (R215). -/
  | stf (i : Issue) (won : Bool)
  /-- FAR_ACCESS_COMPLETE (R193). -/
  | farAccessComplete (bank : Fin 16) (ecc : Ecc)
  /-- ADD (R216). -/
  | add (i : Issue)
  /-- SUB (R216). -/
  | sub (i : Issue)
  /-- ADDI (R216). -/
  | addi (i : Issue)
  /-- ADDS (R217). -/
  | adds (i : Issue)
  /-- SUBS (R217). -/
  | subs (i : Issue)
  /-- NEGS (R217). -/
  | negs (i : Issue)
  /-- SATP (R217). -/
  | satp (i : Issue)
  /-- MIN (R217). -/
  | min_ (i : Issue)
  /-- MAX (R217). -/
  | max_ (i : Issue)
  /-- CLAMP (R217). -/
  | clamp (i : Issue)
  /-- CMP (R217). -/
  | cmp (i : Issue)
  /-- MULS (R218). -/
  | muls (i : Issue)
  /-- MUL (R218). -/
  | mul (i : Issue)
  /-- MAC (R218). -/
  | mac (i : Issue)
  /-- ZRD (R218). -/
  | zrd (i : Issue)
  /-- ZLD (R218). -/
  | zld (i : Issue)
  /-- AND (R219). -/
  | and_ (i : Issue)
  /-- OR (R219). -/
  | or_ (i : Issue)
  /-- XOR (R219). -/
  | xor_ (i : Issue)
  /-- SHL (R220). -/
  | shl (i : Issue)
  /-- SHR (R220). -/
  | shr (i : Issue)
  /-- SAR (R220). -/
  | sar (i : Issue)
  /-- DIVSTEP (R221). -/
  | divstep (i : Issue)
  /-- TRIG (R222). -/
  | trig (i : Issue)
  /-- ATAN2 (R223). -/
  | atan2 (i : Issue)
  /-- CLARKE (R224). -/
  | clarke (i : Issue)
  /-- PARK (R225). -/
  | park (i : Issue)
  /-- IPARK (R225). -/
  | ipark (i : Issue)
  /-- SVM (R226). -/
  | svm (i : Issue)
  /-- PISTEP (R227). -/
  | pistep (i : Issue)
  /-- IN (R228). -/
  | in_ (i : Issue)
  /-- OUT (R228). -/
  | out (i : Issue)
  /-- RDAVG (R150). -/
  | rdavg (i : Issue)
  /-- RDPOS (R188). -/
  | rdpos (i : Issue)
  /-- WRDUTY (R189). -/
  | wrduty (i : Issue)
  /-- WRIREF (R190). -/
  | wriref (i : Issue)
  /-- RDCEIL (R228). -/
  | rdceil (i : Issue)
  /-- ILLEGAL_INSTRUCTION (R202). -/
  | illegalInstruction (eng : Fin 10) (w : Word)
  /-- FETCH_FAULT (R180). -/
  | fetchFault (eng : Fin 10)
  /-- ENGINE_DEADLINE (R181). -/
  | engineDeadline (eng : Fin 10)
  /-- ENGINE_HANG (R184). -/
  | engineHang (eng : Fin 10)
  /-- PARITY_ERROR (R280). -/
  | parityError (eng : Fin 10)
  /-- CLOCK_MONITOR_FAULT (R280). -/
  | clockMonitorFault (eng : Fin 10)
  /-- PATROL_VERDICT (R277). -/
  | patrolVerdict (res : Fin 2)
  /-- PROMOTION (R281). -/
  | promotion
  /-- TAKEOVER_START (R283). -/
  | takeoverStart (res : Fin 2)
  /-- HOST_FRAME (R364). -/
  | hostFrame (bits : BitVec 64)
  /-- HOST_BURST_END (R366). -/
  | hostBurstEnd (partialBits : Fin 64)
  /-- REGISTER_WRITE (R467). -/
  | registerWrite (m : Master) (addr : BitVec 16) (w : Word)
  /-- CALDERA_WINDOW_ACCESS (R322). -/
  | calderaWindowAccess (done : Bool) (ecc : Ecc)
  /-- JNL_ACK_READ (R293). -/
  | jnlAckRead
  /-- CAN_WINDOW_READ (R352). -/
  | canWindowRead (c : Fin 4) (off : Fin 32)
  /-- WARDEN_EVENT (R405). -/
  | wardenEvent (ev : Fin 128)
  /-- BATCH_COMMIT (R302). -/
  | batchCommit (m14 : CopyRead) (m15 : CopyRead)
  /-- SOURCE_AGE_OUT (R300). -/
  | sourceAgeOut (src : BitVec 8)
  /-- HELLO (R298). -/
  | hello (e : JCmd)
  /-- SETPOINT (R305). -/
  | setpoint (e : JCmd)
  /-- MODE (R305). -/
  | mode (e : JCmd)
  /-- START (R305). -/
  | start (e : JCmd)
  /-- STOP (R305). -/
  | stop (e : JCmd)
  /-- ABORT (R307). -/
  | abort (e : JCmd)
  /-- CLEAR_FAULT (R116). -/
  | clearFault (e : JCmd)
  /-- PARAM (R305). -/
  | param (e : JCmd)
  /-- QUERY (R305). -/
  | query (e : JCmd)
  /-- CAN_BUS_INTEGRATION (R338). -/
  | canBusIntegration (c : Fin 4)
  /-- CAN_FRAME_RX (R350). -/
  | canFrameRx (c : Fin 4) (f : CanFrame)
  /-- COMMAND_FRAME_TAKEN (R295). -/
  | commandFrameTaken (c : Fin 4)
  /-- TRANSFER_TIMEOUT (R295). -/
  | transferTimeout (c : Fin 4) (src : BitVec 8)
  /-- CAN_TXREQ_REQ (R343). -/
  | canTxreqReq (c : Fin 4) (mask : BitVec 3)
  /-- CAN_TXREQ_CANCEL (R347). -/
  | canTxreqCancel (c : Fin 4) (mask : BitVec 3)
  /-- CAN_TX_DONE (R346). -/
  | canTxDone (c : Fin 4) (e : TxEnd)
  /-- CAN_TX_LOST (R346). -/
  | canTxLost (c : Fin 4) (why : TxLoss)
  /-- BUS_OFF (R356). -/
  | busOff (c : Fin 4)
  /-- BUS_OFF_RECOVERY_DONE (R357). -/
  | busOffRecoveryDone (c : Fin 4)
  /-- BOREC (R357). -/
  | borec (c : Fin 4)
  /-- HALT_CONTROLLER (R358). -/
  | haltController (c : Fin 4) (on : HaltWrite)
  /-- CAN_DMA_WRITE (R355). -/
  | canDmaWrite (c : Fin 4) (ok : Bool)
  /-- HOLD_CUTOFF (R331). -/
  | holdCutoff (q : Fin 17)
  /-- RESERVATION_RELEASE (R333). -/
  | reservationRelease (q : Fin 17)
  /-- ECC_WRITE_BACK (R319). -/
  | eccWriteBack (bank : Fin 16)
  /-- OTP_READ (R401). -/
  | otpRead
  /-- OTP_PROG (R401). -/
  | otpProg
  /-- KEY_PROG (R401). -/
  | keyProg
  /-- REVOKE (R401). -/
  | revoke
  /-- LOCK (R401). -/
  | lock
  /-- ROLL_ADV (R401). -/
  | rollAdv
  /-- PATCH (R401). -/
  | patch
  /-- ENG_RESET (R198). -/
  | engReset
  /-- OTP_WORD_PROGRAMMED (R398). -/
  | otpWordProgrammed (ok : Bool)
  /-- MAILBOX_ABORT (R403). -/
  | mailboxAbort
  /-- PROGRAMMING_WINDOW_CHANGE (R397). -/
  | programmingWindowChange (vioOk : Bool) (tjOk : Bool)
  /-- SNT_LOCK_SET (R395). -/
  | sntLockSet (bits : BitVec 5)
  /-- TAP_RESET (R456). -/
  | tapReset
  /-- EXTEST (R459). -/
  | extest
  /-- SAMPLE_PRELOAD (R459). -/
  | samplePreload
  /-- IDCODE (R457). -/
  | idcode
  /-- TAP_CLAMP (R459). -/
  | tapClamp
  /-- HIGHZ (R459). -/
  | highz
  /-- BYPASS (R456). -/
  | bypass
  /-- SCAN_UPDATE_DR (R459). -/
  | scanUpdateDr (cells : BitVec 91)
  /-- SCAN_BUS_INTERLOCK (R460). -/
  | scanBusInterlock (above : Bool)
  /-- PWM_COMMAND_EDGE (R81). -/
  | pwmCommandEdge (leg : Fin 28) (edge : PwmEdge)
  /-- SYNCOUT_END (R72). -/
  | syncoutEnd
  /-- THERMAL_READING_EXPIRY (R427). -/
  | thermalReadingExpiry
  /-- CAN_TX_START (R346). -/
  | canTxStart (c : Fin 4) (t : Nat)
  /-- CAN_RECEIVE_ERROR (R356). -/
  | canReceiveError (c : Fin 4) (inc : RxIncrement) (kind : Fin 8) (dataPhase : Bool)
  deriving DecidableEq, Repr, Inhabited

end Sys2Proof
end

