-- ==== Sys2Proof/Config.lean ====
section
/-! DEFINITION. What one part fixes and the manual leaves open: free values, as constants without a body. No proof can
see what they are. Each has a row in the assumption log. -/

namespace Sys2Proof

/-- The warden's random source, by position in the stream of free values (R418, N1). Log entry 20. -/
opaque Config.nonce1 : Nat → BitVec 32

/-- The Vent die's own nonce source (R418, N2). Log entry 20. -/
opaque Config.nonce2 : Nat → BitVec 32

/-- Whether a low pulse of RST_N from 200 ns to 1 µs is taken (R414). Log entry 21. -/
opaque Config.rstPulseTaken : Nat → Bool

/-- IRQ lines that another device pulls low, at a core cycle (R376). Log entry 22. -/
opaque Config.irqExternal : Nat → BitVec 4

/-- Four times the code r′ of R141 step 1: the raw code of a bank at a gain code after the slice estimates and the
vendor PGA trim, whose formula the manual does not give. Log entry 23. -/
opaque Config.corrected4 (bank gain : Nat) (est : Word) (raw : Int) : Int

/-- The next estimate of a slice after a sample: the estimator of R138 is not given. Log entry 24. -/
opaque Config.sliceNext (bank slice : Nat) (est : Word) (raw : Int) (k : Nat) : Word

/-- A vendor trim: the value that a register field marked OTP takes at boot, where R386 gives no layout. Log entry 25. -/
opaque Config.vendorTrim : Nat → Word

/-- A result that the manual does not state, by position in the stream of free values. Log entry 28. -/
opaque Config.freeWord : Nat → Word

/-- The device-unique mask that scrambles CMAC keys (R386). Log entry 26. -/
opaque Config.keyMask : BitVec 128

/-- The outcome of a PATCH verification, whose format the manual does not give (R401): 0 for a good patch, otherwise the
RESULT code SIG or ROLLBACK, with the level of the patch. Log entry 27. -/
opaque Config.patchVerdict : Nat → Fin 3 × BitVec 8

end Sys2Proof
end

