-- ==== Sys2Proof/Machine/Bits.lean ====
section
/-! DEFINITION. Bit fields, sign extension, the number formats of R2 to R4, saturating counters, byte order, and the
sparse tables in canonical form that hold registers, memories and the replicated units. -/

namespace Sys2Proof.Machine

/-! ### Fields of a word -/

/-- Bits [lo+n-1:lo] of a word, as a number. -/
def fget (w : Word) (lo n : Nat) : Nat := (w.toNat >>> lo) % 2 ^ n

/-- The word with ones in bits [lo+n-1:lo]. -/
def fmask (lo n : Nat) : Word := BitVec.ofNat 40 ((2 ^ n - 1) <<< lo)

/-- The word `w` with bits [lo+n-1:lo] replaced by the low `n` bits of `v`. -/
def fput (w : Word) (lo n v : Nat) : Word :=
  (w &&& ~~~(fmask lo n)) ||| BitVec.ofNat 40 ((v % 2 ^ n) <<< lo)

/-- A number with bit `i` set or cleared. -/
def setBit (v i : Nat) (b : Bool) : Nat :=
  if b then v ||| (1 <<< i) else if v.testBit i then v - (1 <<< i) else v

/-- One bit as a number. -/
def b2n (b : Bool) : Nat := if b then 1 else 0

/-! ### Signed numbers -/

/-- The `n`-bit two's-complement value of a number. -/
def signed (n v : Nat) : Int :=
  if (v % 2 ^ n) < 2 ^ (n - 1) then ((v % 2 ^ n : Nat) : Int) else ((v % 2 ^ n : Nat) : Int) - ((2 ^ n : Nat) : Int)

/-- The `n`-bit two's-complement encoding of an integer, wrapping. -/
def unsigned (n : Nat) (i : Int) : Nat := (i % ((2 ^ n : Nat) : Int)).toNat

/-- The integer clamped to lo … hi. -/
def clampI (lo hi x : Int) : Int := if x < lo then lo else if hi < x then hi else x

/-- A natural number clamped to lo … hi. -/
def clampN (lo hi x : Nat) : Nat := if x < lo then lo else if hi < x then hi else x

/-! ### P32 and TURN (R2, R3, R4) -/

/-- The least legal P32 value, −128.0 (R3). -/
def p32Min : Int := -(2 ^ 38)

/-- The greatest legal P32 value, 128.0 − 2^−31 (R3). -/
def p32Max : Int := 2 ^ 38 - 1

/-- 1.0 as P32 (R2). -/
def p32One : Int := 2 ^ 31

/-- The nearer end of the legal range, or the value itself (R3). -/
def satP32 (x : Int) : Int := clampI p32Min p32Max x

/-- Does R3 clamp this value? -/
def satNeeded (x : Int) : Bool := decide (x < p32Min ∨ p32Max < x)

/-- The word of an integer, wrapping. -/
def wordI (i : Int) : Word := BitVec.ofInt 40 i

/-- The word of a natural number, wrapping. -/
def wordN (n : Nat) : Word := BitVec.ofNat 40 n

/-- Floor of the quotient; the divisor is positive. -/
def floorDiv (a : Int) (b : Nat) : Int := a / (b : Int)

/-- Integer square root by bits, from bit `k` down. -/
def isqrtBits : Nat → Nat → Nat → Nat
  | 0, _, r => r
  | k + 1, n, r => let c := r + 2 ^ k; isqrtBits k n (if c * c ≤ n then c else r)

/-- Floor of the square root of a number below 2^128. -/
def isqrt (n : Nat) : Nat := isqrtBits 64 n 0

/-! ### Counters -/

/-- A saturating counter: `v + k`, at most `2^n - 1`. -/
def satAdd (n v k : Nat) : Nat := min (v + k) (2 ^ n - 1)

/-! ### Bytes -/

/-- The number whose little-endian bytes are listed (least significant first). -/
def leNat : List Byte → Nat
  | [] => 0
  | b :: bs => b.toNat + 256 * leNat bs

/-- The number whose big-endian bytes are listed. -/
def beNat (bs : List Byte) : Nat := leNat bs.reverse

/-- The `n` little-endian bytes of a number. -/
def leBytes : Nat → Nat → List Byte
  | 0, _ => []
  | n + 1, v => BitVec.ofNat 8 v :: leBytes n (v / 256)

/-- The `n` big-endian bytes of a number. -/
def beBytes (n v : Nat) : List Byte := (leBytes n v).reverse

/-- Element `i` of a list of bytes, 0 past its end. -/
def byteAt (bs : List Byte) (i : Nat) : Nat := (bs.getD i 0).toNat

/-- `f 0, f 1, …, f (n-1)`. -/
def tabulate {α : Type} (n : Nat) (f : Nat → α) : List α := (List.range n).map f

/-- The indices of the set bits of a mask, lowest first, below `n`. -/
def bitsOf (n mask : Nat) : List Nat := (List.range n).filter (fun i => mask.testBit i)

/-- The number of set bits of a mask, below `n`. -/
def popcount (n mask : Nat) : Nat := (bitsOf n mask).length

/-! ### Sparse tables in canonical form

A table lists only the entries that differ from what an unlisted key reads as, with strictly rising keys, so equal
contents are equal data. -/

/-- The entry of key `i`; an unlisted key reads as `d i`. -/
def tget {α : Type} (d : Nat → α) : List (Nat × α) → Nat → α
  | [], i => d i
  | (k, v) :: t, i => if i < k then d i else if i = k then v else tget d t i

/-- The table without its leading entries of key at most `i` (in canonical form there are none to drop). -/
def tdrop {α : Type} (i : Nat) : List (Nat × α) → List (Nat × α)
  | [] => []
  | (k, w) :: t => if k ≤ i then tdrop i t else (k, w) :: t

/-- The table with key `i` reading as `v`. -/
def tset {α : Type} [DecidableEq α] (d : Nat → α) : List (Nat × α) → Nat → α → List (Nat × α)
  | [], i, v => if v = d i then [] else [(i, v)]
  | (k, w) :: t, i, v =>
    if i < k then (if v = d i then (k, w) :: t else (i, v) :: (k, w) :: t)
    else if i = k then (if v = d i then tdrop i t else (i, v) :: t)
    else (k, w) :: tset d t i v

/-- Keys strictly rising, all of them at least `lo`, and no entry equal to what its key reads as unlisted. -/
def twfFrom {α : Type} [DecidableEq α] (d : Nat → α) : Nat → List (Nat × α) → Bool
  | _, [] => true
  | lo, (k, v) :: t => decide (lo ≤ k) && decide (v ≠ d k) && twfFrom d (k + 1) t

/-- The canonical form. -/
def twf {α : Type} [DecidableEq α] (d : Nat → α) (t : List (Nat × α)) : Bool := twfFrom d 0 t

end Sys2Proof.Machine
end

