-- ==== Sys2Proof/Machine/Regs.lean ====
section
/-! DEFINITION. The register map of chapter 20 (R433, R434) and the field tables of every chapter: one constant per
field, with its place, and the access code of R9 that judges a write of it (R467). -/

namespace Sys2Proof.Machine

/-- A field of a register: the register's address for instance 0, the instance stride of its block (R434), the lowest
bit and the width. -/
structure Fld where
  addr : Nat
  stride : Nat
  lo : Nat
  width : Nat
  deriving DecidableEq, Repr

/-- Access codes of R9. `wdnWo` is ENG_CTL.LRST, which is WDN and WO (chapter 9). -/
inductive Acc where
  | rw | ro | w1c | wo | rws | seal | live | wdn | wdnWo
  deriving DecidableEq, Repr

/-- One field of an access row. -/
structure FAcc where
  lo : Nat
  width : Nat
  acc : Acc
  deriving DecidableEq, Repr

/-- One row of the register map: `count` registers from `addr` on, repeated `insts` times at `stride` (R434). -/
structure RegRow where
  addr : Nat
  count : Nat
  stride : Nat
  insts : Nat
  fields : List FAcc
  deriving DecidableEq, Repr

/-! ### Field constants, named REGISTER_FIELD -/
namespace F

/-- SYS_IMGSTAT -/
def SYS_IMGSTAT : Fld := ⟨0x0010, 0, 0, 40⟩
def SYS_IMGSTAT_STATE : Fld := ⟨0x0010, 0, 0, 3⟩
def SYS_IMGSTAT_SOURCE : Fld := ⟨0x0010, 0, 3, 2⟩
def SYS_IMGSTAT_KEYSLOT : Fld := ⟨0x0010, 0, 5, 2⟩
def SYS_IMGSTAT_ADV_PENDING : Fld := ⟨0x0010, 0, 7, 1⟩
def SYS_IMGSTAT_JNL_KEPT : Fld := ⟨0x0010, 0, 8, 1⟩
def SYS_IMGSTAT_JNL_DROPPED : Fld := ⟨0x0010, 0, 9, 1⟩
def SYS_IMGSTAT_ROLLBACK : Fld := ⟨0x0010, 0, 16, 11⟩
def SYS_IMGSTAT_OTPCNT : Fld := ⟨0x0010, 0, 28, 11⟩
/-- SYS_IMGERR -/
def SYS_IMGERR : Fld := ⟨0x0011, 0, 0, 40⟩
def SYS_IMGERR_CODE : Fld := ⟨0x0011, 0, 0, 8⟩
def SYS_IMGERR_TYPE : Fld := ⟨0x0011, 0, 8, 8⟩
def SYS_IMGERR_INSTANCE : Fld := ⟨0x0011, 0, 16, 8⟩
/-- SYS_IMGOFF -/
def SYS_IMGOFF : Fld := ⟨0x0012, 0, 0, 40⟩
def SYS_IMGOFF_OFFSET : Fld := ⟨0x0012, 0, 0, 20⟩
/-- SYS_IMGBUILD -/
def SYS_IMGBUILD : Fld := ⟨0x0013, 0, 0, 40⟩
def SYS_IMGBUILD_BUILD_ID : Fld := ⟨0x0013, 0, 0, 32⟩
/-- SYS_IMGPUSH -/
def SYS_IMGPUSH : Fld := ⟨0x0014, 0, 0, 40⟩
def SYS_IMGPUSH_LEN : Fld := ⟨0x0014, 0, 0, 21⟩
def SYS_IMGPUSH_GO : Fld := ⟨0x0014, 0, 39, 1⟩
/-- SYS_IMGDIG0–SYS_IMGDIG7 -/
def SYS_IMGDIG : Fld := ⟨0x0018, 1, 0, 40⟩
def SYS_IMGDIG_DIG : Fld := ⟨0x0018, 1, 0, 32⟩
/-- GEY_PERIOD -/
def GEY_PERIOD : Fld := ⟨0x0100, 0, 0, 40⟩
def GEY_PERIOD_PERIOD : Fld := ⟨0x0100, 0, 0, 16⟩
/-- GEY_SYNC -/
def GEY_SYNC : Fld := ⟨0x0101, 0, 0, 40⟩
def GEY_SYNC_FOLLOW : Fld := ⟨0x0101, 0, 0, 1⟩
def GEY_SYNC_SLEW : Fld := ⟨0x0101, 0, 1, 6⟩
def GEY_SYNC_COMP : Fld := ⟨0x0101, 0, 8, 8⟩
def GEY_SYNC_PHASE : Fld := ⟨0x0101, 0, 16, 16⟩
def GEY_SYNC_LOCKWIN : Fld := ⟨0x0101, 0, 32, 8⟩
/-- GEY_FCNT -/
def GEY_FCNT : Fld := ⟨0x0102, 0, 0, 40⟩
def GEY_FCNT_FCNT : Fld := ⟨0x0102, 0, 0, 40⟩
/-- GEY_NOW -/
def GEY_NOW : Fld := ⟨0x0103, 0, 0, 40⟩
def GEY_NOW_CYCLE : Fld := ⟨0x0103, 0, 0, 16⟩
def GEY_NOW_NEXT : Fld := ⟨0x0103, 0, 16, 5⟩
def GEY_NOW_DONE : Fld := ⟨0x0103, 0, 21, 1⟩
/-- GEY_COMMIT -/
def GEY_COMMIT : Fld := ⟨0x0104, 0, 0, 40⟩
def GEY_COMMIT_GO : Fld := ⟨0x0104, 0, 0, 1⟩
def GEY_COMMIT_CANCEL : Fld := ⟨0x0104, 0, 1, 1⟩
/-- GEY_CSTAT -/
def GEY_CSTAT : Fld := ⟨0x0105, 0, 0, 40⟩
def GEY_CSTAT_STATE : Fld := ⟨0x0105, 0, 0, 3⟩
def GEY_CSTAT_REASON : Fld := ⟨0x0105, 0, 8, 4⟩
def GEY_CSTAT_SLOT : Fld := ⟨0x0105, 0, 12, 5⟩
def GEY_CSTAT_MISS : Fld := ⟨0x0105, 0, 17, 1⟩
def GEY_CSTAT_SWAPF : Fld := ⟨0x0105, 0, 24, 16⟩
/-- GEY_SSTAT -/
def GEY_SSTAT : Fld := ⟨0x0106, 0, 0, 40⟩
def GEY_SSTAT_LOCKED : Fld := ⟨0x0106, 0, 0, 1⟩
def GEY_SSTAT_LOST : Fld := ⟨0x0106, 0, 1, 1⟩
def GEY_SSTAT_ERR : Fld := ⟨0x0106, 0, 8, 16⟩
def GEY_SSTAT_LEN : Fld := ⟨0x0106, 0, 24, 16⟩
/-- GEY_OVR -/
def GEY_OVR : Fld := ⟨0x0107, 0, 0, 40⟩
def GEY_OVR_LATE : Fld := ⟨0x0107, 0, 0, 16⟩
def GEY_OVR_DROP : Fld := ⟨0x0107, 0, 16, 16⟩
def GEY_OVR_LSLOT : Fld := ⟨0x0107, 0, 32, 5⟩
def GEY_OVR_CLR : Fld := ⟨0x0107, 0, 39, 1⟩
/-- GEY_SLOT0–GEY_SLOT31 -/
def GEY_SLOT : Fld := ⟨0x0110, 1, 0, 40⟩
def GEY_SLOT_OFFSET : Fld := ⟨0x0110, 1, 0, 16⟩
def GEY_SLOT_ACTION : Fld := ⟨0x0110, 1, 16, 4⟩
def GEY_SLOT_MASK : Fld := ⟨0x0110, 1, 20, 8⟩
/-- GEY_ASLOT0–GEY_ASLOT31 -/
def GEY_ASLOT : Fld := ⟨0x0130, 1, 0, 40⟩
def GEY_ASLOT_SLOT : Fld := ⟨0x0130, 1, 0, 28⟩
/-- LEG_CFG -/
def LEG_CFG : Fld := ⟨0x0800, 32, 0, 40⟩
def LEG_CFG_DT : Fld := ⟨0x0800, 32, 0, 4⟩
def LEG_CFG_BSTMAX : Fld := ⟨0x0800, 32, 4, 8⟩
def LEG_CFG_REFW : Fld := ⟨0x0800, 32, 12, 5⟩
def LEG_CFG_MINPULSE : Fld := ⟨0x0800, 32, 17, 12⟩
def LEG_CFG_EDGE : Fld := ⟨0x0800, 32, 29, 1⟩
def LEG_CFG_TWO : Fld := ⟨0x0800, 32, 30, 1⟩
def LEG_CFG_POLICY : Fld := ⟨0x0800, 32, 31, 2⟩
def LEG_CFG_FALLBACK : Fld := ⟨0x0800, 32, 33, 2⟩
/-- LEG_SDUTY -/
def LEG_SDUTY : Fld := ⟨0x0802, 32, 0, 40⟩
def LEG_SDUTY_DUTY : Fld := ⟨0x0802, 32, 0, 40⟩
/-- LEG_ADUTY -/
def LEG_ADUTY : Fld := ⟨0x0803, 32, 0, 40⟩
def LEG_ADUTY_DUTY : Fld := ⟨0x0803, 32, 0, 40⟩
/-- LEG_EDGE -/
def LEG_EDGE : Fld := ⟨0x0804, 32, 0, 40⟩
def LEG_EDGE_HON : Fld := ⟨0x0804, 32, 0, 20⟩
def LEG_EDGE_HOFF : Fld := ⟨0x0804, 32, 20, 20⟩
/-- LEG_STAT -/
def LEG_STAT : Fld := ⟨0x0805, 32, 0, 40⟩
def LEG_STAT_OUTEN : Fld := ⟨0x0805, 32, 0, 1⟩
def LEG_STAT_FLOAT : Fld := ⟨0x0805, 32, 1, 1⟩
def LEG_STAT_ENTRY : Fld := ⟨0x0805, 32, 2, 1⟩
def LEG_STAT_SAT : Fld := ⟨0x0805, 32, 3, 1⟩
def LEG_STAT_MINP : Fld := ⟨0x0805, 32, 4, 1⟩
def LEG_STAT_IMM : Fld := ⟨0x0805, 32, 5, 1⟩
def LEG_STAT_BCNT : Fld := ⟨0x0805, 32, 8, 8⟩
def LEG_STAT_REFCNT : Fld := ⟨0x0805, 32, 16, 24⟩
/-- LEG_VSTAT -/
def LEG_VSTAT : Fld := ⟨0x0806, 32, 0, 40⟩
def LEG_VSTAT_DTFIX : Fld := ⟨0x0806, 32, 0, 16⟩
def LEG_VSTAT_XLOCK : Fld := ⟨0x0806, 32, 16, 16⟩
def LEG_VSTAT_CLR : Fld := ⟨0x0806, 32, 39, 1⟩
/-- BRK_CFG -/
def BRK_CFG : Fld := ⟨0x0B00, 16, 0, 40⟩
def BRK_CFG_DT : Fld := ⟨0x0B00, 16, 0, 4⟩
def BRK_CFG_ON : Fld := ⟨0x0B00, 16, 4, 8⟩
def BRK_CFG_HYS : Fld := ⟨0x0B00, 16, 12, 6⟩
def BRK_CFG_AXES : Fld := ⟨0x0B00, 16, 18, 8⟩
/-- BRK_DUTY -/
def BRK_DUTY : Fld := ⟨0x0B01, 16, 0, 40⟩
def BRK_DUTY_DUTY : Fld := ⟨0x0B01, 16, 0, 40⟩
/-- BRK_STAT -/
def BRK_STAT : Fld := ⟨0x0B02, 16, 0, 40⟩
def BRK_STAT_CMP : Fld := ⟨0x0B02, 16, 0, 1⟩
def BRK_STAT_ON : Fld := ⟨0x0B02, 16, 1, 1⟩
def BRK_STAT_RAMPD : Fld := ⟨0x0B02, 16, 2, 1⟩
def BRK_STAT_CLAMPS : Fld := ⟨0x0B02, 16, 16, 16⟩
def BRK_STAT_CLR : Fld := ⟨0x0B02, 16, 39, 1⟩
/-- LEG_GDRV -/
def LEG_GDRV : Fld := ⟨0x0807, 32, 0, 40⟩
def LEG_GDRV_ISRC : Fld := ⟨0x0807, 32, 0, 4⟩
def LEG_GDRV_ISNK : Fld := ⟨0x0807, 32, 4, 4⟩
def LEG_GDRV_ISOFT : Fld := ⟨0x0807, 32, 8, 4⟩
def LEG_GDRV_DESAT : Fld := ⟨0x0807, 32, 12, 5⟩
def LEG_GDRV_BLANK : Fld := ⟨0x0807, 32, 17, 5⟩
/-- LEG_FLT -/
def LEG_FLT : Fld := ⟨0x0808, 32, 0, 40⟩
def LEG_FLT_VDSH : Fld := ⟨0x0808, 32, 0, 1⟩
def LEG_FLT_VDSL : Fld := ⟨0x0808, 32, 1, 1⟩
def LEG_FLT_BSTUV : Fld := ⟨0x0808, 32, 2, 1⟩
def LEG_FLT_XLOCKF : Fld := ⟨0x0808, 32, 3, 1⟩
def LEG_FLT_BLKCNT : Fld := ⟨0x0808, 32, 8, 16⟩
def LEG_FLT_BSTINH : Fld := ⟨0x0808, 32, 24, 15⟩
def LEG_FLT_CLR : Fld := ⟨0x0808, 32, 39, 1⟩
/-- BRK_GDRV -/
def BRK_GDRV : Fld := ⟨0x0B03, 16, 0, 40⟩
def BRK_GDRV_ISNK : Fld := ⟨0x0B03, 16, 0, 4⟩
def BRK_GDRV_ISOFT : Fld := ⟨0x0B03, 16, 4, 4⟩
def BRK_GDRV_DESAT : Fld := ⟨0x0B03, 16, 8, 5⟩
def BRK_GDRV_BLANK : Fld := ⟨0x0B03, 16, 13, 5⟩
/-- BRK_FLT -/
def BRK_FLT : Fld := ⟨0x0B04, 16, 0, 40⟩
def BRK_FLT_SC : Fld := ⟨0x0B04, 16, 0, 1⟩
def BRK_FLT_SCCNT : Fld := ⟨0x0B04, 16, 16, 16⟩
def BRK_FLT_CLR : Fld := ⟨0x0B04, 16, 39, 1⟩
/-- VNT_STAT -/
def VNT_STAT : Fld := ⟨0x0B40, 0, 0, 40⟩
def VNT_STAT_CFGOK : Fld := ⟨0x0B40, 0, 0, 1⟩
def VNT_STAT_VLOW : Fld := ⟨0x0B40, 0, 1, 1⟩
def VNT_STAT_VHIGH : Fld := ⟨0x0B40, 0, 2, 1⟩
def VNT_STAT_IOVER : Fld := ⟨0x0B40, 0, 3, 1⟩
def VNT_STAT_RSTCNT : Fld := ⟨0x0B40, 0, 8, 8⟩
def VNT_STAT_PKTLOST : Fld := ⟨0x0B40, 0, 16, 16⟩
def VNT_STAT_CLR : Fld := ⟨0x0B40, 0, 39, 1⟩
/-- VNT_VDRV -/
def VNT_VDRV : Fld := ⟨0x0B41, 0, 0, 40⟩
def VNT_VDRV_VDRV : Fld := ⟨0x0B41, 0, 0, 10⟩
def VNT_VDRV_MIN : Fld := ⟨0x0B41, 0, 10, 10⟩
def VNT_VDRV_IAVG : Fld := ⟨0x0B41, 0, 20, 10⟩
def VNT_VDRV_CLR : Fld := ⟨0x0B41, 0, 39, 1⟩
/-- VNT_FIRST -/
def VNT_FIRST : Fld := ⟨0x0B42, 0, 0, 40⟩
def VNT_FIRST_LEG1 : Fld := ⟨0x0B42, 0, 0, 5⟩
def VNT_FIRST_SIDE1 : Fld := ⟨0x0B42, 0, 5, 1⟩
def VNT_FIRST_LEG2 : Fld := ⟨0x0B42, 0, 6, 5⟩
def VNT_FIRST_SIDE2 : Fld := ⟨0x0B42, 0, 11, 1⟩
def VNT_FIRST_VALID2 : Fld := ⟨0x0B42, 0, 12, 1⟩
def VNT_FIRST_SIM : Fld := ⟨0x0B42, 0, 13, 1⟩
def VNT_FIRST_DELTA : Fld := ⟨0x0B42, 0, 14, 16⟩
def VNT_FIRST_VALID1 : Fld := ⟨0x0B42, 0, 30, 1⟩
/-- VNT_FCLR -/
def VNT_FCLR : Fld := ⟨0x0B44, 0, 0, 40⟩
def VNT_FCLR_AXES : Fld := ⟨0x0B44, 0, 0, 8⟩
def VNT_FCLR_BRAKES : Fld := ⟨0x0B44, 0, 8, 4⟩
def VNT_FCLR_GO : Fld := ⟨0x0B44, 0, 12, 1⟩
def VNT_FCLR_RESULT : Fld := ⟨0x0B44, 0, 13, 2⟩
/-- VNT_AFLT0–VNT_AFLT7 -/
def VNT_AFLT : Fld := ⟨0x0B48, 1, 0, 40⟩
def VNT_AFLT_VSTATE : Fld := ⟨0x0B48, 1, 0, 2⟩
def VNT_AFLT_VDS : Fld := ⟨0x0B48, 1, 2, 1⟩
def VNT_AFLT_BSTUV : Fld := ⟨0x0B48, 1, 3, 1⟩
def VNT_AFLT_TRIP : Fld := ⟨0x0B48, 1, 4, 1⟩
def VNT_AFLT_XLOCK : Fld := ⟨0x0B48, 1, 5, 1⟩
def VNT_AFLT_LINK : Fld := ⟨0x0B48, 1, 6, 1⟩
def VNT_AFLT_TSD : Fld := ⟨0x0B48, 1, 7, 1⟩
def VNT_AFLT_ACTION : Fld := ⟨0x0B48, 1, 8, 3⟩
def VNT_AFLT_GANG : Fld := ⟨0x0B48, 1, 11, 1⟩
def VNT_AFLT_STOPS : Fld := ⟨0x0B48, 1, 16, 16⟩
def VNT_AFLT_CLR : Fld := ⟨0x0B48, 1, 39, 1⟩
/-- ADC_SEQ0–ADC_SEQ15 -/
def ADC_SEQ : Fld := ⟨0x0C00, 64, 0, 40⟩
def ADC_SEQ_CH : Fld := ⟨0x0C00, 64, 0, 7⟩
def ADC_SEQ_GAIN : Fld := ⟨0x0C00, 64, 7, 3⟩
def ADC_SEQ_SAMP : Fld := ⟨0x0C00, 64, 10, 10⟩
def ADC_SEQ_DEST : Fld := ⟨0x0C00, 64, 20, 4⟩
def ADC_SEQ_FBT : Fld := ⟨0x0C00, 64, 24, 1⟩
def ADC_SEQ_CMT : Fld := ⟨0x0C00, 64, 25, 1⟩
/-- ADC_CTL -/
def ADC_CTL : Fld := ⟨0x0C10, 64, 0, 40⟩
def ADC_CTL_LEN : Fld := ⟨0x0C10, 64, 0, 5⟩
def ADC_CTL_SYNC : Fld := ⟨0x0C10, 64, 5, 1⟩
def ADC_CTL_MODE : Fld := ⟨0x0C10, 64, 6, 2⟩
def ADC_CTL_REFSEL : Fld := ⟨0x0C10, 64, 8, 2⟩
/-- ADC_STAT -/
def ADC_STAT : Fld := ⟨0x0C11, 64, 0, 40⟩
def ADC_STAT_REFOK : Fld := ⟨0x0C11, 64, 0, 1⟩
def ADC_STAT_RUN : Fld := ⟨0x0C11, 64, 1, 1⟩
def ADC_STAT_CONV : Fld := ⟨0x0C11, 64, 2, 1⟩
def ADC_STAT_HOLD : Fld := ⟨0x0C11, 64, 3, 1⟩
def ADC_STAT_FROZEN : Fld := ⟨0x0C11, 64, 4, 1⟩
def ADC_STAT_OVR : Fld := ⟨0x0C11, 64, 5, 1⟩
def ADC_STAT_CSAT : Fld := ⟨0x0C11, 64, 6, 1⟩
def ADC_STAT_REFLOST : Fld := ⟨0x0C11, 64, 7, 1⟩
def ADC_STAT_OVRENT : Fld := ⟨0x0C11, 64, 8, 4⟩
def ADC_STAT_CSATENT : Fld := ⟨0x0C11, 64, 12, 4⟩
def ADC_STAT_OVRCNT : Fld := ⟨0x0C11, 64, 16, 16⟩
def ADC_STAT_CLR : Fld := ⟨0x0C11, 64, 39, 1⟩
/-- ADC_CAL -/
def ADC_CAL : Fld := ⟨0x0C12, 64, 0, 40⟩
def ADC_CAL_FREEZE : Fld := ⟨0x0C12, 64, 0, 1⟩
def ADC_CAL_RESTART : Fld := ⟨0x0C12, 64, 1, 1⟩
/-- ADC_PASS -/
def ADC_PASS : Fld := ⟨0x0C13, 64, 0, 40⟩
def ADC_PASS_PASS : Fld := ⟨0x0C13, 64, 0, 16⟩
/-- ADC_SLC0–ADC_SLC3 -/
def ADC_SLC : Fld := ⟨0x0C14, 64, 0, 40⟩
def ADC_SLC_OFS : Fld := ⟨0x0C14, 64, 0, 12⟩
def ADC_SLC_GAIN : Fld := ⟨0x0C14, 64, 12, 12⟩
def ADC_SLC_SKEW : Fld := ⟨0x0C14, 64, 24, 12⟩
/-- COR_CH0–COR_CH95 -/
def COR_CH : Fld := ⟨0x1800, 1, 0, 40⟩
def COR_CH_OFS : Fld := ⟨0x1800, 1, 0, 12⟩
def COR_CH_GAIN : Fld := ⟨0x1800, 1, 12, 16⟩
/-- COR_DIAG0–COR_DIAG95 -/
def COR_DIAG : Fld := ⟨0x1860, 1, 0, 40⟩
def COR_DIAG_PULL : Fld := ⟨0x1860, 1, 0, 2⟩
def COR_DIAG_LEVEL : Fld := ⟨0x1860, 1, 2, 2⟩
/-- ACC_HSUM -/
def ACC_HSUM : Fld := ⟨0x1000, 8, 0, 40⟩
def ACC_HSUM_SUM : Fld := ⟨0x1000, 8, 0, 40⟩
/-- ACC_HCNT -/
def ACC_HCNT : Fld := ⟨0x1001, 8, 0, 40⟩
def ACC_HCNT_CNT : Fld := ⟨0x1001, 8, 0, 24⟩
def ACC_HCNT_TAG : Fld := ⟨0x1001, 8, 24, 8⟩
/-- ACC_HMM -/
def ACC_HMM : Fld := ⟨0x1002, 8, 0, 40⟩
def ACC_HMM_MIN : Fld := ⟨0x1002, 8, 0, 16⟩
def ACC_HMM_MAX : Fld := ⟨0x1002, 8, 16, 16⟩
/-- ACC_CFG -/
def ACC_CFG : Fld := ⟨0x1003, 8, 0, 40⟩
def ACC_CFG_SCALE : Fld := ⟨0x1003, 8, 0, 32⟩
/-- ACC_TRIP -/
def ACC_TRIP : Fld := ⟨0x1004, 8, 0, 40⟩
def ACC_TRIP_TLO : Fld := ⟨0x1004, 8, 0, 16⟩
def ACC_TRIP_THI : Fld := ⟨0x1004, 8, 16, 16⟩
def ACC_TRIP_LOEN : Fld := ⟨0x1004, 8, 32, 1⟩
def ACC_TRIP_HIEN : Fld := ⟨0x1004, 8, 33, 1⟩
/-- ACC_TSTAT -/
def ACC_TSTAT : Fld := ⟨0x1005, 8, 0, 40⟩
def ACC_TSTAT_TRIPH : Fld := ⟨0x1005, 8, 0, 1⟩
def ACC_TSTAT_TRIPL : Fld := ⟨0x1005, 8, 1, 1⟩
def ACC_TSTAT_FIRST : Fld := ⟨0x1005, 8, 2, 1⟩
def ACC_TSTAT_OUT : Fld := ⟨0x1005, 8, 3, 1⟩
def ACC_TSTAT_VAL : Fld := ⟨0x1005, 8, 16, 16⟩
/-- FBK_CFG -/
def FBK_CFG : Fld := ⟨0x1900, 32, 0, 40⟩
def FBK_CFG_INV : Fld := ⟨0x1900, 32, 0, 1⟩
def FBK_CFG_LOSSACT : Fld := ⟨0x1900, 32, 1, 1⟩
def FBK_CFG_WIN : Fld := ⟨0x1900, 32, 2, 6⟩
def FBK_CFG_LOSSN : Fld := ⟨0x1900, 32, 8, 8⟩
/-- FBK_AMON -/
def FBK_AMON : Fld := ⟨0x1901, 32, 0, 40⟩
def FBK_AMON_AMIN : Fld := ⟨0x1901, 32, 0, 16⟩
def FBK_AMON_AMAX : Fld := ⟨0x1901, 32, 16, 16⟩
/-- FBK_SPDSC -/
def FBK_SPDSC : Fld := ⟨0x1902, 32, 0, 40⟩
def FBK_SPDSC_SCALE : Fld := ⟨0x1902, 32, 0, 40⟩
/-- FBK_CTL -/
def FBK_CTL : Fld := ⟨0x1903, 32, 0, 40⟩
def FBK_CTL_REARM : Fld := ⟨0x1903, 32, 0, 1⟩
/-- FBK_STAT -/
def FBK_STAT : Fld := ⟨0x1904, 32, 0, 40⟩
def FBK_STAT_VALID : Fld := ⟨0x1904, 32, 0, 1⟩
def FBK_STAT_SPDV : Fld := ⟨0x1904, 32, 1, 1⟩
def FBK_STAT_OVSPD : Fld := ⟨0x1904, 32, 2, 1⟩
def FBK_STAT_SIGLOSS : Fld := ⟨0x1904, 32, 3, 1⟩
def FBK_STAT_DIR : Fld := ⟨0x1904, 32, 4, 1⟩
def FBK_STAT_REV : Fld := ⟨0x1904, 32, 5, 1⟩
def FBK_STAT_AOUT : Fld := ⟨0x1904, 32, 6, 1⟩
def FBK_STAT_SPDSAT : Fld := ⟨0x1904, 32, 7, 1⟩
/-- FBK_LPOS -/
def FBK_LPOS : Fld := ⟨0x1905, 32, 0, 40⟩
def FBK_LPOS_POS : Fld := ⟨0x1905, 32, 0, 40⟩
/-- FBK_HPOS -/
def FBK_HPOS : Fld := ⟨0x1906, 32, 0, 40⟩
def FBK_HPOS_POS : Fld := ⟨0x1906, 32, 0, 40⟩
/-- FBK_SPD -/
def FBK_SPD : Fld := ⟨0x1907, 32, 0, 40⟩
def FBK_SPD_SPD : Fld := ⟨0x1907, 32, 0, 40⟩
/-- FBK_HAMP -/
def FBK_HAMP : Fld := ⟨0x1908, 32, 0, 40⟩
def FBK_HAMP_MIN : Fld := ⟨0x1908, 32, 0, 16⟩
def FBK_HAMP_MAX : Fld := ⟨0x1908, 32, 16, 16⟩
def FBK_HAMP_TAG : Fld := ⟨0x1908, 32, 32, 8⟩
/-- FBK_HAGE -/
def FBK_HAGE : Fld := ⟨0x1909, 32, 0, 40⟩
def FBK_HAGE_AGE : Fld := ⟨0x1909, 32, 0, 16⟩
/-- FBK_CNT -/
def FBK_CNT : Fld := ⟨0x190A, 32, 0, 40⟩
def FBK_CNT_OVSCNT : Fld := ⟨0x190A, 32, 0, 16⟩
def FBK_CNT_LOSSCNT : Fld := ⟨0x190A, 32, 16, 16⟩
def FBK_CNT_CLR : Fld := ⟨0x190A, 32, 39, 1⟩
/-- ENG_STAT -/
def ENG_STAT : Fld := ⟨0x1A00, 16, 0, 40⟩
def ENG_STAT_STATE : Fld := ⟨0x1A00, 16, 0, 3⟩
def ENG_STAT_AXIS : Fld := ⟨0x1A00, 16, 3, 3⟩
def ENG_STAT_HASAXIS : Fld := ⟨0x1A00, 16, 6, 1⟩
def ENG_STAT_IMM : Fld := ⟨0x1A00, 16, 7, 1⟩
def ENG_STAT_AF : Fld := ⟨0x1A00, 16, 8, 1⟩
def ENG_STAT_HANG : Fld := ⟨0x1A00, 16, 9, 1⟩
def ENG_STAT_SECC : Fld := ⟨0x1A00, 16, 10, 1⟩
def ENG_STAT_DECC : Fld := ⟨0x1A00, 16, 11, 1⟩
def ENG_STAT_FLAGS : Fld := ⟨0x1A00, 16, 16, 16⟩
/-- ENG_RUN -/
def ENG_RUN : Fld := ⟨0x1A01, 16, 0, 40⟩
def ENG_RUN_LAST : Fld := ⟨0x1A01, 16, 0, 16⟩
def ENG_RUN_MAX : Fld := ⟨0x1A01, 16, 16, 16⟩
def ENG_RUN_CLR : Fld := ⟨0x1A01, 16, 39, 1⟩
/-- ENG_OVR -/
def ENG_OVR : Fld := ⟨0x1A02, 16, 0, 40⟩
def ENG_OVR_CONSEC : Fld := ⟨0x1A02, 16, 0, 2⟩
def ENG_OVR_HW : Fld := ⟨0x1A02, 16, 2, 1⟩
def ENG_OVR_CAUSE : Fld := ⟨0x1A02, 16, 3, 3⟩
def ENG_OVR_COUNT : Fld := ⟨0x1A02, 16, 16, 16⟩
def ENG_OVR_CLR : Fld := ⟨0x1A02, 16, 39, 1⟩
/-- ENG_CKPT -/
def ENG_CKPT : Fld := ⟨0x1A03, 16, 0, 40⟩
def ENG_CKPT_LAST : Fld := ⟨0x1A03, 16, 0, 1⟩
def ENG_CKPT_VALID : Fld := ⟨0x1A03, 16, 1, 1⟩
def ENG_CKPT_FRAME : Fld := ⟨0x1A03, 16, 8, 24⟩
def ENG_CKPT_SIZE : Fld := ⟨0x1A03, 16, 32, 7⟩
/-- ENG_ECC -/
def ENG_ECC : Fld := ⟨0x1A04, 16, 0, 40⟩
def ENG_ECC_SCNT : Fld := ⟨0x1A04, 16, 0, 16⟩
def ENG_ECC_ADDR : Fld := ⟨0x1A04, 16, 16, 16⟩
def ENG_ECC_MEM : Fld := ⟨0x1A04, 16, 32, 1⟩
def ENG_ECC_CLR : Fld := ⟨0x1A04, 16, 39, 1⟩
/-- ENG_AFLT -/
def ENG_AFLT : Fld := ⟨0x1A05, 16, 0, 40⟩
def ENG_AFLT_PC : Fld := ⟨0x1A05, 16, 0, 16⟩
def ENG_AFLT_PORT : Fld := ⟨0x1A05, 16, 16, 10⟩
def ENG_AFLT_KIND : Fld := ⟨0x1A05, 16, 26, 3⟩
/-- ENG_CTL -/
def ENG_CTL : Fld := ⟨0x1A06, 16, 0, 40⟩
def ENG_CTL_LRST : Fld := ⟨0x1A06, 16, 0, 1⟩
/-- AX_PARAM0–AX_PARAM31 -/
def AX_PARAM : Fld := ⟨0x0440, 128, 0, 40⟩
def AX_PARAM_VALUE : Fld := ⟨0x0440, 128, 0, 40⟩
/-- AX_REP0–AX_REP7 -/
def AX_REP : Fld := ⟨0x0460, 128, 0, 40⟩
def AX_REP_VALUE : Fld := ⟨0x0460, 128, 0, 40⟩
/-- AX_PEVT -/
def AX_PEVT : Fld := ⟨0x0468, 128, 0, 40⟩
def AX_PEVT_VALUE : Fld := ⟨0x0468, 128, 0, 40⟩
/-- AX_CFG -/
def AX_CFG : Fld := ⟨0x0400, 128, 0, 40⟩
def AX_CFG_EN : Fld := ⟨0x0400, 128, 0, 1⟩
def AX_CFG_KIND : Fld := ⟨0x0400, 128, 1, 3⟩
def AX_CFG_DRIVE : Fld := ⟨0x0400, 128, 4, 2⟩
def AX_CFG_IREQ : Fld := ⟨0x0400, 128, 6, 1⟩
def AX_CFG_OBSREP : Fld := ⟨0x0400, 128, 7, 3⟩
/-- AX_ILIM -/
def AX_ILIM : Fld := ⟨0x0401, 128, 0, 40⟩
def AX_ILIM_ILIM : Fld := ⟨0x0401, 128, 0, 40⟩
/-- AX_CEIL -/
def AX_CEIL : Fld := ⟨0x0402, 128, 0, 40⟩
def AX_CEIL_CEIL : Fld := ⟨0x0402, 128, 0, 40⟩
/-- AX_IREFD -/
def AX_IREFD : Fld := ⟨0x0403, 128, 0, 40⟩
def AX_IREFD_IREF : Fld := ⟨0x0403, 128, 0, 40⟩
/-- AX_IREFQ -/
def AX_IREFQ : Fld := ⟨0x0404, 128, 0, 40⟩
def AX_IREFQ_IREF : Fld := ⟨0x0404, 128, 0, 40⟩
/-- AX_CSTAT -/
def AX_CSTAT : Fld := ⟨0x0405, 128, 0, 40⟩
def AX_CSTAT_STATE : Fld := ⟨0x0405, 128, 0, 3⟩
def AX_CSTAT_FPH : Fld := ⟨0x0405, 128, 3, 2⟩
def AX_CSTAT_WEN : Fld := ⟨0x0405, 128, 5, 1⟩
def AX_CSTAT_RDIR : Fld := ⟨0x0405, 128, 6, 1⟩
def AX_CSTAT_NCR : Fld := ⟨0x0405, 128, 7, 4⟩
def AX_CSTAT_MISSC : Fld := ⟨0x0405, 128, 11, 4⟩
def AX_CSTAT_INV : Fld := ⟨0x0405, 128, 15, 1⟩
def AX_CSTAT_MISS : Fld := ⟨0x0405, 128, 16, 1⟩
/-- AX_CX0–AX_CX1 -/
def AX_CX : Fld := ⟨0x0406, 128, 0, 40⟩
def AX_CX_AGE : Fld := ⟨0x0406, 128, 0, 24⟩
def AX_CX_PHASE : Fld := ⟨0x0406, 128, 24, 2⟩
def AX_CX_POL : Fld := ⟨0x0406, 128, 26, 1⟩
def AX_CX_VALID : Fld := ⟨0x0406, 128, 27, 1⟩
def AX_CX_DIRX : Fld := ⟨0x0406, 128, 28, 1⟩
def AX_CX_SEQ : Fld := ⟨0x0406, 128, 32, 8⟩
/-- AX_NANG -/
def AX_NANG : Fld := ⟨0x0408, 128, 0, 40⟩
def AX_NANG_ANG : Fld := ⟨0x0408, 128, 0, 32⟩
/-- AX_NRATE -/
def AX_NRATE : Fld := ⟨0x0409, 128, 0, 40⟩
def AX_NRATE_RATE : Fld := ⟨0x0409, 128, 0, 40⟩
/-- AX_CCNT -/
def AX_CCNT : Fld := ⟨0x040A, 128, 0, 40⟩
def AX_CCNT_VCNT : Fld := ⟨0x040A, 128, 0, 16⟩
def AX_CCNT_ICNT : Fld := ⟨0x040A, 128, 16, 12⟩
def AX_CCNT_MCNT : Fld := ⟨0x040A, 128, 28, 11⟩
def AX_CCNT_CLR : Fld := ⟨0x040A, 128, 39, 1⟩
/-- AX_COMM -/
def AX_COMM : Fld := ⟨0x0418, 128, 0, 40⟩
def AX_COMM_CBLANK : Fld := ⟨0x0418, 128, 0, 10⟩
def AX_COMM_FBLANK : Fld := ⟨0x0418, 128, 10, 12⟩
def AX_COMM_FW : Fld := ⟨0x0418, 128, 22, 5⟩
/-- AX_CTHR -/
def AX_CTHR : Fld := ⟨0x0419, 128, 0, 40⟩
def AX_CTHR_CHYS : Fld := ⟨0x0419, 128, 0, 16⟩
def AX_CTHR_RMIN : Fld := ⟨0x0419, 128, 16, 24⟩
/-- AX_SCFG -/
def AX_SCFG : Fld := ⟨0x0420, 128, 0, 40⟩
def AX_SCFG_HORATE : Fld := ⟨0x0420, 128, 0, 24⟩
def AX_SCFG_DIR : Fld := ⟨0x0420, 128, 24, 1⟩
def AX_SCFG_RETRY : Fld := ⟨0x0420, 128, 25, 3⟩
def AX_SCFG_RDLY : Fld := ⟨0x0420, 128, 28, 8⟩
/-- AX_SRAMP -/
def AX_SRAMP : Fld := ⟨0x0421, 128, 0, 40⟩
def AX_SRAMP_SACC : Fld := ⟨0x0421, 128, 0, 24⟩
def AX_SRAMP_SDWELL : Fld := ⟨0x0421, 128, 24, 16⟩
/-- AX_SCUR -/
def AX_SCUR : Fld := ⟨0x0422, 128, 0, 40⟩
def AX_SCUR_ISTART : Fld := ⟨0x0422, 128, 0, 20⟩
def AX_SCUR_ISTEP : Fld := ⟨0x0422, 128, 20, 16⟩
/-- AX_CATCH -/
def AX_CATCH : Fld := ⟨0x0423, 128, 0, 40⟩
def AX_CATCH_TCATCH : Fld := ⟨0x0423, 128, 0, 6⟩
def AX_CATCH_BRKMAX : Fld := ⟨0x0423, 128, 6, 24⟩
def AX_CATCH_TBRK : Fld := ⟨0x0423, 128, 30, 8⟩
/-- AX_SEQT -/
def AX_SEQT : Fld := ⟨0x0424, 128, 0, 40⟩
def AX_SEQT_LOSSN : Fld := ⟨0x0424, 128, 0, 4⟩
def AX_SEQT_REACQ : Fld := ⟨0x0424, 128, 4, 10⟩
def AX_SEQT_RRAMP : Fld := ⟨0x0424, 128, 14, 8⟩
def AX_SEQT_SCLN : Fld := ⟨0x0424, 128, 22, 8⟩
/-- AX_RAMP -/
def AX_RAMP : Fld := ⟨0x0425, 128, 0, 40⟩
def AX_RAMP_ENDSPD : Fld := ⟨0x0425, 128, 0, 24⟩
def AX_RAMP_TRAMP : Fld := ⟨0x0425, 128, 24, 12⟩
/-- AX_SSTAT -/
def AX_SSTAT : Fld := ⟨0x0426, 128, 0, 40⟩
def AX_SSTAT_ATTEMPT : Fld := ⟨0x0426, 128, 0, 3⟩
def AX_SSTAT_CRES : Fld := ⟨0x0426, 128, 3, 3⟩
def AX_SSTAT_WAIT : Fld := ⟨0x0426, 128, 6, 1⟩
def AX_SSTAT_HO : Fld := ⟨0x0426, 128, 7, 1⟩
def AX_SSTAT_SYNC : Fld := ⟨0x0426, 128, 8, 1⟩
def AX_SSTAT_RAMP : Fld := ⟨0x0426, 128, 9, 1⟩
def AX_SSTAT_RECOV : Fld := ⟨0x0426, 128, 10, 1⟩
def AX_SSTAT_SFAIL : Fld := ⟨0x0426, 128, 11, 1⟩
def AX_SSTAT_REVTO : Fld := ⟨0x0426, 128, 12, 1⟩
def AX_SSTAT_OBSLOST : Fld := ⟨0x0426, 128, 13, 1⟩
def AX_SSTAT_FCAUSE : Fld := ⟨0x0426, 128, 14, 2⟩
def AX_SSTAT_CONSV : Fld := ⟨0x0426, 128, 16, 4⟩
def AX_SSTAT_REND : Fld := ⟨0x0426, 128, 20, 3⟩
/-- AX_CMEAS -/
def AX_CMEAS : Fld := ⟨0x0427, 128, 0, 40⟩
def AX_CMEAS_SPD : Fld := ⟨0x0427, 128, 0, 24⟩
def AX_CMEAS_BACK : Fld := ⟨0x0427, 128, 24, 1⟩
def AX_CMEAS_NX : Fld := ⟨0x0427, 128, 25, 3⟩
def AX_CMEAS_VALID : Fld := ⟨0x0427, 128, 28, 1⟩
/-- AX_CAMP -/
def AX_CAMP : Fld := ⟨0x0428, 128, 0, 40⟩
def AX_CAMP_AMPC : Fld := ⟨0x0428, 128, 0, 20⟩
def AX_CAMP_AMP : Fld := ⟨0x0428, 128, 20, 20⟩
/-- ENG_PCTL -/
def ENG_PCTL : Fld := ⟨0x1AA0, 0, 0, 40⟩
def ENG_PCTL_PATROL : Fld := ⟨0x1AA0, 0, 0, 1⟩
def ENG_PCTL_EXCL : Fld := ⟨0x1AA0, 0, 8, 8⟩
/-- ENG_PSTAT -/
def ENG_PSTAT : Fld := ⟨0x1AA1, 0, 0, 40⟩
def ENG_PSTAT_AX8 : Fld := ⟨0x1AA1, 0, 0, 4⟩
def ENG_PSTAT_AX9 : Fld := ⟨0x1AA1, 0, 4, 4⟩
def ENG_PSTAT_MISM : Fld := ⟨0x1AA1, 0, 8, 1⟩
def ENG_PSTAT_ABANDON : Fld := ⟨0x1AA1, 0, 9, 1⟩
/-- ENG_PCNT -/
def ENG_PCNT : Fld := ⟨0x1AA2, 0, 0, 40⟩
def ENG_PCNT_MATCH : Fld := ⟨0x1AA2, 0, 0, 20⟩
def ENG_PCNT_SKIP : Fld := ⟨0x1AA2, 0, 20, 16⟩
def ENG_PCNT_CLR : Fld := ⟨0x1AA2, 0, 39, 1⟩
/-- ENG_PMIS -/
def ENG_PMIS : Fld := ⟨0x1AA3, 0, 0, 40⟩
def ENG_PMIS_AXIS : Fld := ⟨0x1AA3, 0, 0, 3⟩
def ENG_PMIS_RES : Fld := ⟨0x1AA3, 0, 3, 1⟩
def ENG_PMIS_INDEX : Fld := ⟨0x1AA3, 0, 4, 12⟩
def ENG_PMIS_KIND : Fld := ⟨0x1AA3, 0, 16, 2⟩
def ENG_PMIS_ADDR : Fld := ⟨0x1AA3, 0, 18, 16⟩
def ENG_PMIS_FRAME : Fld := ⟨0x1AA3, 0, 34, 6⟩
/-- ENG_PROM -/
def ENG_PROM : Fld := ⟨0x1AA4, 0, 0, 40⟩
def ENG_PROM_HOLD8 : Fld := ⟨0x1AA4, 0, 0, 4⟩
def ENG_PROM_HOLD9 : Fld := ⟨0x1AA4, 0, 4, 4⟩
def ENG_PROM_FENCED : Fld := ⟨0x1AA4, 0, 8, 10⟩
def ENG_PROM_STRAND : Fld := ⟨0x1AA4, 0, 18, 8⟩
/-- ENG_PLAST -/
def ENG_PLAST : Fld := ⟨0x1AA5, 0, 0, 40⟩
def ENG_PLAST_FAILED : Fld := ⟨0x1AA5, 0, 0, 4⟩
def ENG_PLAST_RES : Fld := ⟨0x1AA5, 0, 4, 1⟩
def ENG_PLAST_AXIS : Fld := ⟨0x1AA5, 0, 5, 3⟩
def ENG_PLAST_CAUSE : Fld := ⟨0x1AA5, 0, 8, 3⟩
def ENG_PLAST_TAKE : Fld := ⟨0x1AA5, 0, 11, 1⟩
def ENG_PLAST_CKVALID : Fld := ⟨0x1AA5, 0, 12, 1⟩
def ENG_PLAST_ITIME : Fld := ⟨0x1AA5, 0, 16, 14⟩
def ENG_PLAST_QUAL : Fld := ⟨0x1AA5, 0, 30, 1⟩
def ENG_PLAST_OVER : Fld := ⟨0x1AA5, 0, 31, 1⟩
def ENG_PLAST_COUNT : Fld := ⟨0x1AA5, 0, 32, 8⟩
/-- ENG_PQUAL -/
def ENG_PQUAL : Fld := ⟨0x1AA6, 0, 0, 40⟩
def ENG_PQUAL_QUAL : Fld := ⟨0x1AA6, 0, 0, 8⟩
/-- JNL_CFG -/
def JNL_CFG : Fld := ⟨0x1E00, 0, 0, 40⟩
def JNL_CFG_SIZEC : Fld := ⟨0x1E00, 0, 0, 4⟩
def JNL_CFG_NODE : Fld := ⟨0x1E00, 0, 4, 8⟩
def JNL_CFG_TIMEOUT : Fld := ⟨0x1E00, 0, 16, 24⟩
/-- JNL_STAT -/
def JNL_STAT : Fld := ⟨0x1E01, 0, 0, 40⟩
def JNL_STAT_USED : Fld := ⟨0x1E01, 0, 0, 11⟩
def JNL_STAT_SRCN : Fld := ⟨0x1E01, 0, 11, 7⟩
def JNL_STAT_MIRROR : Fld := ⟨0x1E01, 0, 18, 2⟩
def JNL_STAT_PFILL : Fld := ⟨0x1E01, 0, 20, 9⟩
/-- JNL_CNT -/
def JNL_CNT : Fld := ⟨0x1E02, 0, 0, 40⟩
def JNL_CNT_ACC : Fld := ⟨0x1E02, 0, 0, 20⟩
def JNL_CNT_REF : Fld := ⟨0x1E02, 0, 20, 16⟩
def JNL_CNT_CLR : Fld := ⟨0x1E02, 0, 39, 1⟩
/-- JNL_CNT2 -/
def JNL_CNT2 : Fld := ⟨0x1E03, 0, 0, 40⟩
def JNL_CNT2_DUP : Fld := ⟨0x1E03, 0, 0, 16⟩
def JNL_CNT2_DISC : Fld := ⟨0x1E03, 0, 16, 16⟩
def JNL_CNT2_CLR : Fld := ⟨0x1E03, 0, 39, 1⟩
/-- JNL_RLAST -/
def JNL_RLAST : Fld := ⟨0x1E04, 0, 0, 40⟩
def JNL_RLAST_SOURCE : Fld := ⟨0x1E04, 0, 0, 8⟩
def JNL_RLAST_SEQ : Fld := ⟨0x1E04, 0, 8, 24⟩
def JNL_RLAST_STATUS : Fld := ⟨0x1E04, 0, 32, 8⟩
/-- JNL_ACK -/
def JNL_ACK : Fld := ⟨0x1E05, 0, 0, 40⟩
def JNL_ACK_SOURCE : Fld := ⟨0x1E05, 0, 0, 8⟩
def JNL_ACK_SEQ : Fld := ⟨0x1E05, 0, 8, 24⟩
def JNL_ACK_STATUS : Fld := ⟨0x1E05, 0, 32, 8⟩
/-- JNL_ACKD -/
def JNL_ACKD : Fld := ⟨0x1E06, 0, 0, 40⟩
def JNL_ACKD_DATA : Fld := ⟨0x1E06, 0, 0, 32⟩
def JNL_ACKD_CODE : Fld := ⟨0x1E06, 0, 32, 8⟩
/-- JNL_AFIFO -/
def JNL_AFIFO : Fld := ⟨0x1E07, 0, 0, 40⟩
def JNL_AFIFO_COUNT : Fld := ⟨0x1E07, 0, 0, 7⟩
def JNL_AFIFO_OVF : Fld := ⟨0x1E07, 0, 7, 1⟩
def JNL_AFIFO_LOST : Fld := ⟨0x1E07, 0, 8, 16⟩
def JNL_AFIFO_CLR : Fld := ⟨0x1E07, 0, 39, 1⟩
/-- JNL_CMDW0–JNL_CMDW63 -/
def JNL_CMDW : Fld := ⟨0x1E40, 1, 0, 40⟩
def JNL_CMDW_WORD : Fld := ⟨0x1E40, 1, 0, 40⟩
/-- JNL_SRC0–JNL_SRC63 -/
def JNL_SRC : Fld := ⟨0x1E80, 1, 0, 40⟩
def JNL_SRC_SOURCE : Fld := ⟨0x1E80, 1, 0, 8⟩
def JNL_SRC_LAST : Fld := ⟨0x1E80, 1, 8, 24⟩
def JNL_SRC_VALID : Fld := ⟨0x1E80, 1, 32, 1⟩
def JNL_SRC_AUTH : Fld := ⟨0x1E80, 1, 33, 1⟩
def JNL_SRC_PATH : Fld := ⟨0x1E80, 1, 34, 3⟩
def JNL_SRC_BUSY : Fld := ⟨0x1E80, 1, 37, 1⟩
/-- AX_MODE -/
def AX_MODE : Fld := ⟨0x0410, 128, 0, 40⟩
def AX_MODE_MODE : Fld := ⟨0x0410, 128, 0, 2⟩
/-- AX_SETT, AX_SETS, AX_SETP -/
def AX_SETT : Fld := ⟨0x0411, 128, 0, 40⟩
def AX_SETT_VALUE : Fld := ⟨0x0411, 128, 0, 40⟩
/-- AX_CMD -/
def AX_CMD : Fld := ⟨0x0414, 128, 0, 40⟩
def AX_CMD_SOURCE : Fld := ⟨0x0414, 128, 0, 8⟩
def AX_CMD_SEQ : Fld := ⟨0x0414, 128, 8, 24⟩
def AX_CMD_KIND : Fld := ⟨0x0414, 128, 32, 2⟩
def AX_CMD_REQDONE : Fld := ⟨0x0414, 128, 34, 1⟩
/-- SYS_CWPAGE -/
def SYS_CWPAGE : Fld := ⟨0x0020, 0, 0, 40⟩
def SYS_CWPAGE_PAGE : Fld := ⟨0x0020, 0, 0, 5⟩
/-- CON_PRIO -/
def CON_PRIO : Fld := ⟨0x1B00, 0, 0, 40⟩
def CON_PRIO_P0 : Fld := ⟨0x1B00, 0, 0, 20⟩
def CON_PRIO_P10 : Fld := ⟨0x1B00, 0, 20, 2⟩
def CON_PRIO_P11 : Fld := ⟨0x1B00, 0, 22, 2⟩
def CON_PRIO_P12 : Fld := ⟨0x1B00, 0, 24, 2⟩
def CON_PRIO_P13 : Fld := ⟨0x1B00, 0, 26, 8⟩
/-- CON_HOLD -/
def CON_HOLD : Fld := ⟨0x1B01, 0, 0, 40⟩
def CON_HOLD_HOLDMAX : Fld := ⟨0x1B01, 0, 0, 12⟩
/-- CON_CUTOFF -/
def CON_CUTOFF : Fld := ⟨0x1B02, 0, 0, 40⟩
def CON_CUTOFF_REQ : Fld := ⟨0x1B02, 0, 0, 17⟩
def CON_CUTOFF_LAST : Fld := ⟨0x1B02, 0, 17, 5⟩
def CON_CUTOFF_COUNT : Fld := ⟨0x1B02, 0, 22, 16⟩
def CON_CUTOFF_CLR : Fld := ⟨0x1B02, 0, 39, 1⟩
/-- CON_RSTAT -/
def CON_RSTAT : Fld := ⟨0x1B03, 0, 0, 40⟩
def CON_RSTAT_REQ : Fld := ⟨0x1B03, 0, 0, 5⟩
def CON_RSTAT_CODE : Fld := ⟨0x1B03, 0, 5, 2⟩
def CON_RSTAT_COUNT : Fld := ⟨0x1B03, 0, 7, 16⟩
def CON_RSTAT_CLR : Fld := ⟨0x1B03, 0, 39, 1⟩
/-- CON_ECC -/
def CON_ECC : Fld := ⟨0x1B04, 0, 0, 40⟩
def CON_ECC_SCNT : Fld := ⟨0x1B04, 0, 0, 12⟩
def CON_ECC_UCNT : Fld := ⟨0x1B04, 0, 12, 8⟩
def CON_ECC_ADDR : Fld := ⟨0x1B04, 0, 20, 19⟩
def CON_ECC_CLR : Fld := ⟨0x1B04, 0, 39, 1⟩
/-- CON_CNT -/
def CON_CNT : Fld := ⟨0x1B05, 0, 0, 40⟩
def CON_CNT_QFULL : Fld := ⟨0x1B05, 0, 0, 16⟩
def CON_CNT_DENY : Fld := ⟨0x1B05, 0, 16, 16⟩
def CON_CNT_CLR : Fld := ⟨0x1B05, 0, 39, 1⟩
/-- CON_MAP0–CON_MAP16 -/
def CON_MAP : Fld := ⟨0x1B10, 1, 0, 40⟩
def CON_MAP_BANKS : Fld := ⟨0x1B10, 1, 0, 16⟩
/-- CAN_CTL -/
def CAN_CTL : Fld := ⟨0x1C00, 128, 0, 40⟩
def CAN_CTL_EN : Fld := ⟨0x1C00, 128, 0, 1⟩
def CAN_CTL_FDEN : Fld := ⟨0x1C00, 128, 1, 1⟩
def CAN_CTL_TXORD : Fld := ⟨0x1C00, 128, 2, 1⟩
def CAN_CTL_RPLBUF : Fld := ⟨0x1C00, 128, 3, 1⟩
def CAN_CTL_LISTEN : Fld := ⟨0x1C00, 128, 4, 1⟩
def CAN_CTL_ESZ : Fld := ⟨0x1C00, 128, 5, 2⟩
def CAN_CTL_WMK : Fld := ⟨0x1C00, 128, 7, 5⟩
def CAN_CTL_PRIV : Fld := ⟨0x1C00, 128, 12, 1⟩
def CAN_CTL_HALT : Fld := ⟨0x1C00, 128, 13, 1⟩
def CAN_CTL_BOREC : Fld := ⟨0x1C00, 128, 14, 1⟩
/-- CAN_NBT -/
def CAN_NBT : Fld := ⟨0x1C01, 128, 0, 40⟩
def CAN_NBT_NBRP : Fld := ⟨0x1C01, 128, 0, 9⟩
def CAN_NBT_NSEG1 : Fld := ⟨0x1C01, 128, 9, 8⟩
def CAN_NBT_NSEG2 : Fld := ⟨0x1C01, 128, 17, 7⟩
def CAN_NBT_NSJW : Fld := ⟨0x1C01, 128, 24, 7⟩
/-- CAN_DBT -/
def CAN_DBT : Fld := ⟨0x1C02, 128, 0, 40⟩
def CAN_DBT_DBRP : Fld := ⟨0x1C02, 128, 0, 5⟩
def CAN_DBT_DSEG1 : Fld := ⟨0x1C02, 128, 5, 5⟩
def CAN_DBT_DSEG2 : Fld := ⟨0x1C02, 128, 10, 4⟩
def CAN_DBT_DSJW : Fld := ⟨0x1C02, 128, 14, 4⟩
def CAN_DBT_TDCO : Fld := ⟨0x1C02, 128, 18, 7⟩
def CAN_DBT_TDCEN : Fld := ⟨0x1C02, 128, 25, 1⟩
/-- CAN_STAT -/
def CAN_STAT : Fld := ⟨0x1C03, 128, 0, 40⟩
def CAN_STAT_STATE : Fld := ⟨0x1C03, 128, 0, 2⟩
def CAN_STAT_EWARN : Fld := ⟨0x1C03, 128, 2, 1⟩
def CAN_STAT_RECOV : Fld := ⟨0x1C03, 128, 3, 1⟩
def CAN_STAT_RECCNT : Fld := ⟨0x1C03, 128, 4, 8⟩
def CAN_STAT_TEC : Fld := ⟨0x1C03, 128, 12, 9⟩
def CAN_STAT_REC : Fld := ⟨0x1C03, 128, 21, 8⟩
def CAN_STAT_LEC : Fld := ⟨0x1C03, 128, 29, 3⟩
def CAN_STAT_LECD : Fld := ⟨0x1C03, 128, 32, 1⟩
def CAN_STAT_TDCV : Fld := ⟨0x1C03, 128, 33, 7⟩
/-- CAN_CNT -/
def CAN_CNT : Fld := ⟨0x1C04, 128, 0, 40⟩
def CAN_CNT_OVS : Fld := ⟨0x1C04, 128, 0, 12⟩
def CAN_CNT_IDCOL : Fld := ⟨0x1C04, 128, 12, 12⟩
def CAN_CNT_RXLOST : Fld := ⟨0x1C04, 128, 24, 12⟩
def CAN_CNT_CLR : Fld := ⟨0x1C04, 128, 39, 1⟩
/-- CAN_CNT2 -/
def CAN_CNT2 : Fld := ⟨0x1C05, 128, 0, 40⟩
def CAN_CNT2_PRBLOST : Fld := ⟨0x1C05, 128, 0, 12⟩
def CAN_CNT2_RPLLOST : Fld := ⟨0x1C05, 128, 12, 12⟩
def CAN_CNT2_RMT : Fld := ⟨0x1C05, 128, 24, 12⟩
def CAN_CNT2_TDCSAT : Fld := ⟨0x1C05, 128, 36, 1⟩
def CAN_CNT2_DMAERR : Fld := ⟨0x1C05, 128, 37, 1⟩
def CAN_CNT2_CLR : Fld := ⟨0x1C05, 128, 39, 1⟩
/-- CAN_TXREQ -/
def CAN_TXREQ : Fld := ⟨0x1C06, 128, 0, 40⟩
def CAN_TXREQ_REQ : Fld := ⟨0x1C06, 128, 0, 3⟩
def CAN_TXREQ_CANCEL : Fld := ⟨0x1C06, 128, 4, 3⟩
/-- CAN_TXSTAT -/
def CAN_TXSTAT : Fld := ⟨0x1C07, 128, 0, 40⟩
def CAN_TXSTAT_STATE0 : Fld := ⟨0x1C07, 128, 0, 3⟩
def CAN_TXSTAT_OK0 : Fld := ⟨0x1C07, 128, 3, 1⟩
def CAN_TXSTAT_LATE0 : Fld := ⟨0x1C07, 128, 4, 1⟩
def CAN_TXSTAT_BOFF0 : Fld := ⟨0x1C07, 128, 5, 1⟩
def CAN_TXSTAT_CANCEL0 : Fld := ⟨0x1C07, 128, 6, 1⟩
def CAN_TXSTAT_INVALID0 : Fld := ⟨0x1C07, 128, 7, 1⟩
def CAN_TXSTAT_STATE1 : Fld := ⟨0x1C07, 128, 8, 3⟩
def CAN_TXSTAT_OK1 : Fld := ⟨0x1C07, 128, 11, 1⟩
def CAN_TXSTAT_LATE1 : Fld := ⟨0x1C07, 128, 12, 1⟩
def CAN_TXSTAT_BOFF1 : Fld := ⟨0x1C07, 128, 13, 1⟩
def CAN_TXSTAT_CANCEL1 : Fld := ⟨0x1C07, 128, 14, 1⟩
def CAN_TXSTAT_INVALID1 : Fld := ⟨0x1C07, 128, 15, 1⟩
def CAN_TXSTAT_STATE2 : Fld := ⟨0x1C07, 128, 16, 3⟩
def CAN_TXSTAT_OK2 : Fld := ⟨0x1C07, 128, 19, 1⟩
def CAN_TXSTAT_LATE2 : Fld := ⟨0x1C07, 128, 20, 1⟩
def CAN_TXSTAT_BOFF2 : Fld := ⟨0x1C07, 128, 21, 1⟩
def CAN_TXSTAT_CANCEL2 : Fld := ⟨0x1C07, 128, 22, 1⟩
def CAN_TXSTAT_INVALID2 : Fld := ⟨0x1C07, 128, 23, 1⟩
def CAN_TXSTAT_RPLQ : Fld := ⟨0x1C07, 128, 24, 6⟩
/-- CAN_TIME -/
def CAN_TIME : Fld := ⟨0x1C08, 128, 0, 40⟩
def CAN_TIME_TIME : Fld := ⟨0x1C08, 128, 0, 40⟩
/-- CAN_TTICK -/
def CAN_TTICK : Fld := ⟨0x1C09, 128, 0, 40⟩
def CAN_TTICK_TIME : Fld := ⟨0x1C09, 128, 0, 40⟩
/-- CAN_FSEL -/
def CAN_FSEL : Fld := ⟨0x1C0A, 128, 0, 40⟩
def CAN_FSEL_INDEX : Fld := ⟨0x1C0A, 128, 0, 6⟩
/-- CAN_FCODE -/
def CAN_FCODE : Fld := ⟨0x1C0B, 128, 0, 40⟩
def CAN_FCODE_CODE : Fld := ⟨0x1C0B, 128, 0, 29⟩
def CAN_FCODE_XTD : Fld := ⟨0x1C0B, 128, 29, 1⟩
def CAN_FCODE_ACTION : Fld := ⟨0x1C0B, 128, 30, 3⟩
/-- CAN_FMASK -/
def CAN_FMASK : Fld := ⟨0x1C0C, 128, 0, 40⟩
def CAN_FMASK_MASK : Fld := ⟨0x1C0C, 128, 0, 29⟩
/-- CAN_DMA -/
def CAN_DMA : Fld := ⟨0x1C0D, 128, 0, 40⟩
def CAN_DMA_BASE : Fld := ⟨0x1C0D, 128, 0, 19⟩
def CAN_DMA_SLOTS : Fld := ⟨0x1C0D, 128, 19, 8⟩
def CAN_DMA_EN : Fld := ⟨0x1C0D, 128, 27, 1⟩
/-- CAN_DMAP -/
def CAN_DMAP : Fld := ⟨0x1C0E, 128, 0, 40⟩
def CAN_DMAP_RD : Fld := ⟨0x1C0E, 128, 0, 8⟩
def CAN_DMAP_WR : Fld := ⟨0x1C0E, 128, 8, 8⟩
/-- CAN_RXSTAT -/
def CAN_RXSTAT : Fld := ⟨0x1C0F, 128, 0, 40⟩
def CAN_RXSTAT_COUNT : Fld := ⟨0x1C0F, 128, 0, 6⟩
def CAN_RXSTAT_LOCKF : Fld := ⟨0x1C0F, 128, 6, 1⟩
def CAN_RXSTAT_PRBF : Fld := ⟨0x1C0F, 128, 7, 1⟩
def CAN_RXSTAT_LOCKP : Fld := ⟨0x1C0F, 128, 8, 1⟩
def CAN_RXSTAT_WAITP : Fld := ⟨0x1C0F, 128, 9, 1⟩
/-- TXB_ID0 -/
def TXB_ID0 : Fld := ⟨0x1C10, 128, 0, 40⟩
def TXB_ID0_ID : Fld := ⟨0x1C10, 128, 0, 29⟩
def TXB_ID0_XTD : Fld := ⟨0x1C10, 128, 29, 1⟩
def TXB_ID0_FDF : Fld := ⟨0x1C10, 128, 30, 1⟩
def TXB_ID0_BRS : Fld := ⟨0x1C10, 128, 31, 1⟩
/-- TXB_DLC0 -/
def TXB_DLC0 : Fld := ⟨0x1C11, 128, 0, 40⟩
def TXB_DLC0_DLC : Fld := ⟨0x1C11, 128, 0, 4⟩
/-- TXB_DATA0 -/
def TXB_DATA : Fld := ⟨0x1C12, 128, 0, 40⟩
def TXB_DATA_DATA : Fld := ⟨0x1C12, 128, 0, 40⟩
/-- TXB_TS0 -/
def TXB_TS0 : Fld := ⟨0x1C1F, 128, 0, 40⟩
def TXB_TS0_TS : Fld := ⟨0x1C1F, 128, 0, 40⟩
/-- TXB_ID1 -/
def TXB_ID1 : Fld := ⟨0x1C20, 128, 0, 40⟩
def TXB_ID1_ID : Fld := ⟨0x1C20, 128, 0, 29⟩
def TXB_ID1_XTD : Fld := ⟨0x1C20, 128, 29, 1⟩
def TXB_ID1_FDF : Fld := ⟨0x1C20, 128, 30, 1⟩
def TXB_ID1_BRS : Fld := ⟨0x1C20, 128, 31, 1⟩
/-- TXB_DLC1 -/
def TXB_DLC1 : Fld := ⟨0x1C21, 128, 0, 40⟩
def TXB_DLC1_DLC : Fld := ⟨0x1C21, 128, 0, 4⟩
/-- TXB_DATA1 -/
def TXB_DATA1 : Fld := ⟨0x1C22, 128, 0, 40⟩
def TXB_DATA1_DATA : Fld := ⟨0x1C22, 128, 0, 40⟩
/-- TXB_TS1 -/
def TXB_TS1 : Fld := ⟨0x1C2F, 128, 0, 40⟩
def TXB_TS1_TS : Fld := ⟨0x1C2F, 128, 0, 40⟩
/-- TXB_ID2 -/
def TXB_ID2 : Fld := ⟨0x1C30, 128, 0, 40⟩
def TXB_ID2_ID : Fld := ⟨0x1C30, 128, 0, 29⟩
def TXB_ID2_XTD : Fld := ⟨0x1C30, 128, 29, 1⟩
def TXB_ID2_FDF : Fld := ⟨0x1C30, 128, 30, 1⟩
def TXB_ID2_BRS : Fld := ⟨0x1C30, 128, 31, 1⟩
/-- TXB_DLC2 -/
def TXB_DLC2 : Fld := ⟨0x1C31, 128, 0, 40⟩
def TXB_DLC2_DLC : Fld := ⟨0x1C31, 128, 0, 4⟩
/-- TXB_DATA2 -/
def TXB_DATA2 : Fld := ⟨0x1C32, 128, 0, 40⟩
def TXB_DATA2_DATA : Fld := ⟨0x1C32, 128, 0, 40⟩
/-- TXB_TS2 -/
def TXB_TS2 : Fld := ⟨0x1C3F, 128, 0, 40⟩
def TXB_TS2_TS : Fld := ⟨0x1C3F, 128, 0, 40⟩
/-- CAN_PRB -/
def CAN_PRB : Fld := ⟨0x1C40, 128, 0, 40⟩
def CAN_PRB_WORD : Fld := ⟨0x1C40, 128, 0, 40⟩
/-- CAN_FIFO -/
def CAN_FIFO : Fld := ⟨0x1C50, 128, 0, 40⟩
def CAN_FIFO_WORD : Fld := ⟨0x1C50, 128, 0, 40⟩
/-- EVT_STAT0–EVT_STAT3 -/
def EVT_STAT : Fld := ⟨0x0200, 1, 0, 40⟩
def EVT_STAT_STAT : Fld := ⟨0x0200, 1, 0, 32⟩
/-- EVT_EN0–EVT_EN3 -/
def EVT_EN : Fld := ⟨0x0204, 1, 0, 40⟩
def EVT_EN_EN : Fld := ⟨0x0204, 1, 0, 32⟩
/-- EVT_WRT0–EVT_WRT3 -/
def EVT_WRT : Fld := ⟨0x0208, 1, 0, 40⟩
def EVT_WRT_WRT : Fld := ⟨0x0208, 1, 0, 32⟩
/-- EVT_ROUTE0–EVT_ROUTE15 -/
def EVT_ROUTE : Fld := ⟨0x0210, 1, 0, 40⟩
def EVT_ROUTE_PIN : Fld := ⟨0x0210, 1, 0, 16⟩
/-- EVT_VEC0–EVT_VEC3 -/
def EVT_VEC : Fld := ⟨0x0220, 1, 0, 40⟩
def EVT_VEC_EVENT : Fld := ⟨0x0220, 1, 0, 7⟩
def EVT_VEC_VALID : Fld := ⟨0x0220, 1, 7, 1⟩
/-- EVT_PIN -/
def EVT_PIN : Fld := ⟨0x0224, 0, 0, 40⟩
def EVT_PIN_DRIVE : Fld := ⟨0x0224, 0, 0, 4⟩
def EVT_PIN_LEVEL : Fld := ⟨0x0224, 0, 4, 4⟩
/-- HST_STAT -/
def HST_STAT : Fld := ⟨0x2200, 0, 0, 40⟩
def HST_STAT_RSTF : Fld := ⟨0x2200, 0, 0, 1⟩
def HST_STAT_CRCE : Fld := ⟨0x2200, 0, 1, 1⟩
def HST_STAT_FRME : Fld := ⟨0x2200, 0, 2, 1⟩
def HST_STAT_LSTAT : Fld := ⟨0x2200, 0, 8, 8⟩
def HST_STAT_LADDR : Fld := ⟨0x2200, 0, 16, 15⟩
/-- HST_CNT -/
def HST_CNT : Fld := ⟨0x2201, 0, 0, 40⟩
def HST_CNT_CRCCNT : Fld := ⟨0x2201, 0, 0, 16⟩
def HST_CNT_FRMCNT : Fld := ⟨0x2201, 0, 16, 16⟩
def HST_CNT_CLR : Fld := ⟨0x2201, 0, 39, 1⟩
/-- HST_SCR -/
def HST_SCR : Fld := ⟨0x2202, 0, 0, 40⟩
def HST_SCR_VALUE : Fld := ⟨0x2202, 0, 0, 40⟩
/-- HST_LAST -/
def HST_LAST : Fld := ⟨0x2203, 0, 0, 40⟩
def HST_LAST_DATA : Fld := ⟨0x2203, 0, 0, 40⟩
/-- HST_NOP -/
def HST_NOP : Fld := ⟨0x2204, 0, 0, 40⟩
/-- WDN_STAT -/
def WDN_STAT : Fld := ⟨0x2000, 0, 0, 40⟩
def WDN_STAT_ROMVER : Fld := ⟨0x2000, 0, 0, 8⟩
def WDN_STAT_PATCH : Fld := ⟨0x2000, 0, 8, 8⟩
def WDN_STAT_RESTR : Fld := ⟨0x2000, 0, 16, 1⟩
def WDN_STAT_LSERR : Fld := ⟨0x2000, 0, 17, 1⟩
/-- WDN_MBCMD -/
def WDN_MBCMD : Fld := ⟨0x2001, 0, 0, 40⟩
def WDN_MBCMD_CODE : Fld := ⟨0x2001, 0, 0, 8⟩
def WDN_MBCMD_GO : Fld := ⟨0x2001, 0, 8, 1⟩
def WDN_MBCMD_ABORT : Fld := ⟨0x2001, 0, 9, 1⟩
/-- WDN_MBSTAT -/
def WDN_MBSTAT : Fld := ⟨0x2002, 0, 0, 40⟩
def WDN_MBSTAT_STATE : Fld := ⟨0x2002, 0, 0, 2⟩
def WDN_MBSTAT_ABTLATE : Fld := ⟨0x2002, 0, 2, 1⟩
def WDN_MBSTAT_RESULT : Fld := ⟨0x2002, 0, 8, 8⟩
def WDN_MBSTAT_CODE : Fld := ⟨0x2002, 0, 16, 8⟩
def WDN_MBSTAT_WORDS : Fld := ⟨0x2002, 0, 24, 16⟩
/-- WDN_MBARG0–WDN_MBARG7 -/
def WDN_MBARG : Fld := ⟨0x2004, 1, 0, 40⟩
def WDN_MBARG_ARG : Fld := ⟨0x2004, 1, 0, 40⟩
/-- WDN_MBRES0–WDN_MBRES3 -/
def WDN_MBRES : Fld := ⟨0x200C, 1, 0, 40⟩
def WDN_MBRES_RES : Fld := ⟨0x200C, 1, 0, 40⟩
/-- WDN_ARMREF -/
def WDN_ARMREF : Fld := ⟨0x2010, 0, 0, 40⟩
def WDN_ARMREF_AXIS : Fld := ⟨0x2010, 0, 0, 3⟩
def WDN_ARMREF_REASON : Fld := ⟨0x2010, 0, 3, 4⟩
def WDN_ARMREF_COUNT : Fld := ⟨0x2010, 0, 7, 16⟩
/-- WDN_ESC -/
def WDN_ESC : Fld := ⟨0x2011, 0, 0, 40⟩
def WDN_ESC_BLOCK : Fld := ⟨0x2011, 0, 0, 8⟩
def WDN_ESC_LASTEV : Fld := ⟨0x2011, 0, 8, 7⟩
def WDN_ESC_COUNT : Fld := ⟨0x2011, 0, 15, 16⟩
/-- WDN_ESCMASK -/
def WDN_ESCMASK : Fld := ⟨0x2012, 0, 0, 40⟩
def WDN_ESCMASK_AXES : Fld := ⟨0x2012, 0, 0, 8⟩
/-- SNT_STAT -/
def SNT_STAT : Fld := ⟨0x2100, 0, 0, 40⟩
def SNT_STAT_BOOTDONE : Fld := ⟨0x2100, 0, 0, 1⟩
def SNT_STAT_WINOK : Fld := ⟨0x2100, 0, 1, 1⟩
def SNT_STAT_VIOOK : Fld := ⟨0x2100, 0, 2, 1⟩
def SNT_STAT_TJOK : Fld := ⟨0x2100, 0, 3, 1⟩
def SNT_STAT_PROG : Fld := ⟨0x2100, 0, 4, 1⟩
def SNT_STAT_MAJ : Fld := ⟨0x2100, 0, 5, 1⟩
def SNT_STAT_MCNT : Fld := ⟨0x2100, 0, 8, 8⟩
def SNT_STAT_MADDR : Fld := ⟨0x2100, 0, 16, 10⟩
/-- SNT_LOCK -/
def SNT_LOCK : Fld := ⟨0x2101, 0, 0, 40⟩
def SNT_LOCK_LOCK : Fld := ⟨0x2101, 0, 0, 5⟩
/-- SNT_KEYS -/
def SNT_KEYS : Fld := ⟨0x2102, 0, 0, 40⟩
def SNT_KEYS_SLOT : Fld := ⟨0x2102, 0, 0, 8⟩
def SNT_KEYS_KEY : Fld := ⟨0x2102, 0, 8, 32⟩
/-- SNT_ID -/
def SNT_ID : Fld := ⟨0x2103, 0, 0, 40⟩
def SNT_ID_ID : Fld := ⟨0x2103, 0, 0, 40⟩
/-- SNT_REV -/
def SNT_REV : Fld := ⟨0x2104, 0, 0, 40⟩
def SNT_REV_PART : Fld := ⟨0x2104, 0, 0, 16⟩
def SNT_REV_REV : Fld := ⟨0x2104, 0, 16, 8⟩
/-- SNT_RBC -/
def SNT_RBC : Fld := ⟨0x2105, 0, 0, 40⟩
def SNT_RBC_IMG : Fld := ⟨0x2105, 0, 0, 11⟩
def SNT_RBC_PATCH : Fld := ⟨0x2105, 0, 11, 11⟩
/-- THM_TEMP -/
def THM_TEMP : Fld := ⟨0x1F00, 0, 0, 40⟩
def THM_TEMP_TEMP : Fld := ⟨0x1F00, 0, 0, 12⟩
def THM_TEMP_MIN : Fld := ⟨0x1F00, 0, 12, 12⟩
def THM_TEMP_MAX : Fld := ⟨0x1F00, 0, 24, 12⟩
def THM_TEMP_CLR : Fld := ⟨0x1F00, 0, 39, 1⟩
/-- THM_LIM -/
def THM_LIM : Fld := ⟨0x1F01, 0, 0, 40⟩
def THM_LIM_TWARN : Fld := ⟨0x1F01, 0, 0, 8⟩
def THM_LIM_TTHR : Fld := ⟨0x1F01, 0, 8, 8⟩
def THM_LIM_TSD : Fld := ⟨0x1F01, 0, 16, 8⟩
def THM_LIM_HWARN : Fld := ⟨0x1F01, 0, 24, 5⟩
def THM_LIM_HTHR : Fld := ⟨0x1F01, 0, 29, 5⟩
def THM_LIM_HSD : Fld := ⟨0x1F01, 0, 34, 5⟩
/-- THM_SLOPE -/
def THM_SLOPE : Fld := ⟨0x1F02, 0, 0, 40⟩
def THM_SLOPE_KS : Fld := ⟨0x1F02, 0, 0, 16⟩
def THM_SLOPE_SMIN : Fld := ⟨0x1F02, 0, 16, 16⟩
/-- THM_STAT -/
def THM_STAT : Fld := ⟨0x1F03, 0, 0, 40⟩
def THM_STAT_VALID : Fld := ⟨0x1F03, 0, 0, 1⟩
def THM_STAT_WARN : Fld := ⟨0x1F03, 0, 1, 1⟩
def THM_STAT_THR : Fld := ⟨0x1F03, 0, 2, 1⟩
def THM_STAT_TSDL : Fld := ⟨0x1F03, 0, 3, 1⟩
def THM_STAT_TSDT : Fld := ⟨0x1F03, 0, 4, 1⟩
def THM_STAT_DFAIL : Fld := ⟨0x1F03, 0, 5, 1⟩
def THM_STAT_S : Fld := ⟨0x1F03, 0, 8, 17⟩
/-- DIE_AUTH -/
def DIE_AUTH : Fld := ⟨0x1F80, 0, 0, 40⟩
def DIE_AUTH_CST : Fld := ⟨0x1F80, 0, 0, 16⟩
def DIE_AUTH_VST : Fld := ⟨0x1F80, 0, 16, 16⟩
/-- DIE_DIS -/
def DIE_DIS : Fld := ⟨0x1F81, 0, 0, 40⟩
def DIE_DIS_DIS : Fld := ⟨0x1F81, 0, 0, 8⟩
def DIE_DIS_COUNT : Fld := ⟨0x1F81, 0, 8, 16⟩
def DIE_DIS_CLR : Fld := ⟨0x1F81, 0, 39, 1⟩
/-- DIE_LINK -/
def DIE_LINK : Fld := ⟨0x1F82, 0, 0, 40⟩
def DIE_LINK_VSIL : Fld := ⟨0x1F82, 0, 0, 1⟩
def DIE_LINK_VSILL : Fld := ⟨0x1F82, 0, 1, 1⟩
def DIE_LINK_CFGFAIL : Fld := ⟨0x1F82, 0, 2, 1⟩
def DIE_LINK_RESENDS : Fld := ⟨0x1F82, 0, 8, 8⟩
/-- DIE_ARM -/
def DIE_ARM : Fld := ⟨0x1F83, 0, 0, 40⟩
def DIE_ARM_AXIS : Fld := ⟨0x1F83, 0, 0, 3⟩
def DIE_ARM_RESULT : Fld := ⟨0x1F83, 0, 3, 3⟩
def DIE_ARM_VREASON : Fld := ⟨0x1F83, 0, 6, 4⟩
def DIE_ARM_COUNT : Fld := ⟨0x1F83, 0, 10, 16⟩
/-- DIE_RSTC -/
def DIE_RSTC : Fld := ⟨0x1F84, 0, 0, 40⟩
def DIE_RSTC_CAUSE : Fld := ⟨0x1F84, 0, 0, 3⟩
def DIE_RSTC_RETLOST : Fld := ⟨0x1F84, 0, 3, 1⟩
def DIE_RSTC_WARM : Fld := ⟨0x1F84, 0, 4, 8⟩
def DIE_RSTC_WDOG : Fld := ⟨0x1F84, 0, 12, 8⟩
/-- DIE_SUP -/
def DIE_SUP : Fld := ⟨0x1F85, 0, 0, 40⟩
def DIE_SUP_VIOW : Fld := ⟨0x1F85, 0, 0, 1⟩
def DIE_SUP_VDDAW : Fld := ⟨0x1F85, 0, 1, 1⟩
def DIE_SUP_VIOWL : Fld := ⟨0x1F85, 0, 2, 1⟩
def DIE_SUP_VDDAWL : Fld := ⟨0x1F85, 0, 3, 1⟩
def DIE_SUP_PLLOK : Fld := ⟨0x1F85, 0, 4, 1⟩

end F

/-! ### The access rows, block by block (R433) -/

/-- Access rows of the SYS block. -/
def regRowsSys : List RegRow := [
  ⟨0x0010, 1, 0, 1, [⟨0, 3, .ro⟩, ⟨3, 2, .ro⟩, ⟨5, 2, .ro⟩, ⟨7, 1, .ro⟩, ⟨8, 1, .ro⟩, ⟨9, 1, .ro⟩, ⟨16, 11, .ro⟩, ⟨28, 11, .ro⟩]⟩,
  ⟨0x0011, 1, 0, 1, [⟨0, 8, .ro⟩, ⟨8, 8, .ro⟩, ⟨16, 8, .ro⟩]⟩,
  ⟨0x0012, 1, 0, 1, [⟨0, 20, .ro⟩]⟩,
  ⟨0x0013, 1, 0, 1, [⟨0, 32, .ro⟩]⟩,
  ⟨0x0014, 1, 0, 1, [⟨0, 21, .wo⟩, ⟨39, 1, .wo⟩]⟩,
  ⟨0x0018, 8, 0, 1, [⟨0, 32, .ro⟩]⟩,
  ⟨0x0020, 1, 0, 1, [⟨0, 5, .rw⟩]⟩]

/-- Access rows of the GEY block. -/
def regRowsGey : List RegRow := [
  ⟨0x0100, 1, 0, 1, [⟨0, 16, .seal⟩]⟩,
  ⟨0x0101, 1, 0, 1, [⟨0, 1, .seal⟩, ⟨1, 6, .seal⟩, ⟨8, 8, .seal⟩, ⟨16, 16, .seal⟩, ⟨32, 8, .seal⟩]⟩,
  ⟨0x0102, 1, 0, 1, [⟨0, 40, .ro⟩]⟩,
  ⟨0x0103, 1, 0, 1, [⟨0, 16, .ro⟩, ⟨16, 5, .ro⟩, ⟨21, 1, .ro⟩]⟩,
  ⟨0x0104, 1, 0, 1, [⟨0, 1, .wo⟩, ⟨1, 1, .wo⟩]⟩,
  ⟨0x0105, 1, 0, 1, [⟨0, 3, .ro⟩, ⟨8, 4, .ro⟩, ⟨12, 5, .ro⟩, ⟨17, 1, .ro⟩, ⟨24, 16, .ro⟩]⟩,
  ⟨0x0106, 1, 0, 1, [⟨0, 1, .ro⟩, ⟨1, 1, .w1c⟩, ⟨8, 16, .ro⟩, ⟨24, 16, .ro⟩]⟩,
  ⟨0x0107, 1, 0, 1, [⟨0, 16, .ro⟩, ⟨16, 16, .ro⟩, ⟨32, 5, .ro⟩, ⟨39, 1, .wo⟩]⟩,
  ⟨0x0110, 32, 0, 1, [⟨0, 16, .rw⟩, ⟨16, 4, .rw⟩, ⟨20, 8, .rw⟩]⟩,
  ⟨0x0130, 32, 0, 1, [⟨0, 28, .ro⟩]⟩]

/-- Access rows of the EVT block. -/
def regRowsEvt : List RegRow := [
  ⟨0x0200, 4, 0, 1, [⟨0, 32, .w1c⟩]⟩,
  ⟨0x0204, 4, 0, 1, [⟨0, 32, .rw⟩]⟩,
  ⟨0x0208, 4, 0, 1, [⟨0, 32, .wdn⟩]⟩,
  ⟨0x0210, 16, 0, 1, [⟨0, 16, .rw⟩]⟩,
  ⟨0x0220, 4, 0, 1, [⟨0, 7, .ro⟩, ⟨7, 1, .ro⟩]⟩,
  ⟨0x0224, 1, 0, 1, [⟨0, 4, .ro⟩, ⟨4, 4, .ro⟩]⟩]

/-- Access rows of the AX block. -/
def regRowsAx : List RegRow := [
  ⟨0x0400, 1, 128, 8, [⟨0, 1, .ro⟩, ⟨1, 3, .ro⟩, ⟨4, 2, .ro⟩, ⟨6, 1, .seal⟩, ⟨7, 3, .seal⟩]⟩,
  ⟨0x0401, 1, 128, 8, [⟨0, 40, .wdn⟩]⟩,
  ⟨0x0402, 1, 128, 8, [⟨0, 40, .ro⟩]⟩,
  ⟨0x0403, 1, 128, 8, [⟨0, 40, .ro⟩]⟩,
  ⟨0x0404, 1, 128, 8, [⟨0, 40, .ro⟩]⟩,
  ⟨0x0405, 1, 128, 8, [⟨0, 3, .ro⟩, ⟨3, 2, .ro⟩, ⟨5, 1, .ro⟩, ⟨6, 1, .ro⟩, ⟨7, 4, .ro⟩, ⟨11, 4, .ro⟩, ⟨15, 1, .ro⟩, ⟨16, 1, .ro⟩]⟩,
  ⟨0x0406, 2, 128, 8, [⟨0, 24, .ro⟩, ⟨24, 2, .ro⟩, ⟨26, 1, .ro⟩, ⟨27, 1, .ro⟩, ⟨28, 1, .ro⟩, ⟨32, 8, .ro⟩]⟩,
  ⟨0x0408, 1, 128, 8, [⟨0, 32, .ro⟩]⟩,
  ⟨0x0409, 1, 128, 8, [⟨0, 40, .ro⟩]⟩,
  ⟨0x040A, 1, 128, 8, [⟨0, 16, .ro⟩, ⟨16, 12, .ro⟩, ⟨28, 11, .ro⟩, ⟨39, 1, .wo⟩]⟩,
  ⟨0x0410, 1, 128, 8, [⟨0, 2, .live⟩]⟩,
  ⟨0x0411, 3, 128, 8, [⟨0, 40, .live⟩]⟩,
  ⟨0x0414, 1, 128, 8, [⟨0, 8, .ro⟩, ⟨8, 24, .ro⟩, ⟨32, 2, .ro⟩, ⟨34, 1, .ro⟩]⟩,
  ⟨0x0418, 1, 128, 8, [⟨0, 10, .live⟩, ⟨10, 12, .live⟩, ⟨22, 5, .live⟩]⟩,
  ⟨0x0419, 1, 128, 8, [⟨0, 16, .live⟩, ⟨16, 24, .live⟩]⟩,
  ⟨0x0420, 1, 128, 8, [⟨0, 24, .live⟩, ⟨24, 1, .live⟩, ⟨25, 3, .live⟩, ⟨28, 8, .live⟩]⟩,
  ⟨0x0421, 1, 128, 8, [⟨0, 24, .live⟩, ⟨24, 16, .live⟩]⟩,
  ⟨0x0422, 1, 128, 8, [⟨0, 20, .live⟩, ⟨20, 16, .live⟩]⟩,
  ⟨0x0423, 1, 128, 8, [⟨0, 6, .live⟩, ⟨6, 24, .live⟩, ⟨30, 8, .live⟩]⟩,
  ⟨0x0424, 1, 128, 8, [⟨0, 4, .live⟩, ⟨4, 10, .live⟩, ⟨14, 8, .live⟩, ⟨22, 8, .live⟩]⟩,
  ⟨0x0425, 1, 128, 8, [⟨0, 24, .wdn⟩, ⟨24, 12, .wdn⟩]⟩,
  ⟨0x0426, 1, 128, 8, [⟨0, 3, .ro⟩, ⟨3, 3, .ro⟩, ⟨6, 1, .ro⟩, ⟨7, 1, .ro⟩, ⟨8, 1, .ro⟩, ⟨9, 1, .ro⟩, ⟨10, 1, .ro⟩, ⟨11, 1, .w1c⟩, ⟨12, 1, .w1c⟩, ⟨13, 1, .w1c⟩, ⟨14, 2, .ro⟩, ⟨16, 4, .ro⟩, ⟨20, 3, .ro⟩]⟩,
  ⟨0x0427, 1, 128, 8, [⟨0, 24, .ro⟩, ⟨24, 1, .ro⟩, ⟨25, 3, .ro⟩, ⟨28, 1, .ro⟩]⟩,
  ⟨0x0428, 1, 128, 8, [⟨0, 20, .ro⟩, ⟨20, 20, .ro⟩]⟩,
  ⟨0x0440, 32, 128, 8, [⟨0, 40, .live⟩]⟩,
  ⟨0x0460, 8, 128, 8, [⟨0, 40, .ro⟩]⟩,
  ⟨0x0468, 1, 128, 8, [⟨0, 40, .ro⟩]⟩]

/-- Access rows of the LEG block. -/
def regRowsLeg : List RegRow := [
  ⟨0x0800, 1, 32, 24, [⟨0, 4, .ro⟩, ⟨4, 8, .ro⟩, ⟨12, 5, .ro⟩, ⟨17, 12, .ro⟩, ⟨29, 1, .ro⟩, ⟨30, 1, .ro⟩, ⟨31, 2, .ro⟩, ⟨33, 2, .ro⟩]⟩,
  ⟨0x0802, 1, 32, 24, [⟨0, 40, .ro⟩]⟩,
  ⟨0x0803, 1, 32, 24, [⟨0, 40, .ro⟩]⟩,
  ⟨0x0804, 1, 32, 24, [⟨0, 20, .ro⟩, ⟨20, 20, .ro⟩]⟩,
  ⟨0x0805, 1, 32, 24, [⟨0, 1, .ro⟩, ⟨1, 1, .ro⟩, ⟨2, 1, .ro⟩, ⟨3, 1, .w1c⟩, ⟨4, 1, .w1c⟩, ⟨5, 1, .w1c⟩, ⟨8, 8, .ro⟩, ⟨16, 24, .ro⟩]⟩,
  ⟨0x0806, 1, 32, 24, [⟨0, 16, .ro⟩, ⟨16, 16, .ro⟩, ⟨39, 1, .wo⟩]⟩,
  ⟨0x0807, 1, 32, 24, [⟨0, 4, .ro⟩, ⟨4, 4, .ro⟩, ⟨8, 4, .ro⟩, ⟨12, 5, .ro⟩, ⟨17, 5, .ro⟩]⟩,
  ⟨0x0808, 1, 32, 24, [⟨0, 1, .ro⟩, ⟨1, 1, .ro⟩, ⟨2, 1, .ro⟩, ⟨3, 1, .ro⟩, ⟨8, 16, .ro⟩, ⟨24, 15, .ro⟩, ⟨39, 1, .wo⟩]⟩]

/-- Access rows of the BRK block. -/
def regRowsBrk : List RegRow := [
  ⟨0x0B00, 1, 16, 4, [⟨0, 4, .ro⟩, ⟨4, 8, .ro⟩, ⟨12, 6, .ro⟩, ⟨18, 8, .ro⟩]⟩,
  ⟨0x0B01, 1, 16, 4, [⟨0, 40, .ro⟩]⟩,
  ⟨0x0B02, 1, 16, 4, [⟨0, 1, .ro⟩, ⟨1, 1, .ro⟩, ⟨2, 1, .ro⟩, ⟨16, 16, .ro⟩, ⟨39, 1, .wo⟩]⟩,
  ⟨0x0B03, 1, 16, 4, [⟨0, 4, .ro⟩, ⟨4, 4, .ro⟩, ⟨8, 5, .ro⟩, ⟨13, 5, .ro⟩]⟩,
  ⟨0x0B04, 1, 16, 4, [⟨0, 1, .ro⟩, ⟨16, 16, .ro⟩, ⟨39, 1, .wo⟩]⟩]

/-- Access rows of the VNT block. -/
def regRowsVnt : List RegRow := [
  ⟨0x0B40, 1, 0, 1, [⟨0, 1, .ro⟩, ⟨1, 1, .ro⟩, ⟨2, 1, .ro⟩, ⟨3, 1, .w1c⟩, ⟨8, 8, .ro⟩, ⟨16, 16, .ro⟩, ⟨39, 1, .wo⟩]⟩,
  ⟨0x0B41, 1, 0, 1, [⟨0, 10, .ro⟩, ⟨10, 10, .ro⟩, ⟨20, 10, .ro⟩, ⟨39, 1, .wo⟩]⟩,
  ⟨0x0B42, 1, 0, 1, [⟨0, 5, .ro⟩, ⟨5, 1, .ro⟩, ⟨6, 5, .ro⟩, ⟨11, 1, .ro⟩, ⟨12, 1, .ro⟩, ⟨13, 1, .ro⟩, ⟨14, 16, .ro⟩, ⟨30, 1, .ro⟩]⟩,
  ⟨0x0B44, 1, 0, 1, [⟨0, 8, .rw⟩, ⟨8, 4, .rw⟩, ⟨12, 1, .wo⟩, ⟨13, 2, .ro⟩]⟩,
  ⟨0x0B48, 8, 0, 1, [⟨0, 2, .ro⟩, ⟨2, 1, .ro⟩, ⟨3, 1, .ro⟩, ⟨4, 1, .ro⟩, ⟨5, 1, .ro⟩, ⟨6, 1, .ro⟩, ⟨7, 1, .ro⟩, ⟨8, 3, .ro⟩, ⟨11, 1, .ro⟩, ⟨16, 16, .ro⟩, ⟨39, 1, .wo⟩]⟩]

/-- Access rows of the ADC block. -/
def regRowsAdc : List RegRow := [
  ⟨0x0C00, 16, 64, 16, [⟨0, 7, .seal⟩, ⟨7, 3, .seal⟩, ⟨10, 10, .seal⟩, ⟨20, 4, .seal⟩, ⟨24, 1, .seal⟩, ⟨25, 1, .seal⟩]⟩,
  ⟨0x0C10, 1, 64, 16, [⟨0, 5, .seal⟩, ⟨5, 1, .seal⟩, ⟨6, 2, .seal⟩, ⟨8, 2, .seal⟩]⟩,
  ⟨0x0C11, 1, 64, 16, [⟨0, 1, .ro⟩, ⟨1, 1, .ro⟩, ⟨2, 1, .ro⟩, ⟨3, 1, .ro⟩, ⟨4, 1, .ro⟩, ⟨5, 1, .w1c⟩, ⟨6, 1, .w1c⟩, ⟨7, 1, .w1c⟩, ⟨8, 4, .ro⟩, ⟨12, 4, .ro⟩, ⟨16, 16, .ro⟩, ⟨39, 1, .wo⟩]⟩,
  ⟨0x0C12, 1, 64, 16, [⟨0, 1, .rw⟩, ⟨1, 1, .wo⟩]⟩,
  ⟨0x0C13, 1, 64, 16, [⟨0, 16, .ro⟩]⟩,
  ⟨0x0C14, 4, 64, 16, [⟨0, 12, .ro⟩, ⟨12, 12, .ro⟩, ⟨24, 12, .ro⟩]⟩]

/-- Access rows of the ACC block. -/
def regRowsAcc : List RegRow := [
  ⟨0x1000, 1, 8, 256, [⟨0, 40, .ro⟩]⟩,
  ⟨0x1001, 1, 8, 256, [⟨0, 24, .ro⟩, ⟨24, 8, .ro⟩]⟩,
  ⟨0x1002, 1, 8, 256, [⟨0, 16, .ro⟩, ⟨16, 16, .ro⟩]⟩,
  ⟨0x1003, 1, 8, 256, [⟨0, 32, .seal⟩]⟩,
  ⟨0x1004, 1, 8, 256, [⟨0, 16, .wdn⟩, ⟨16, 16, .wdn⟩, ⟨32, 1, .wdn⟩, ⟨33, 1, .wdn⟩]⟩,
  ⟨0x1005, 1, 8, 256, [⟨0, 1, .w1c⟩, ⟨1, 1, .w1c⟩, ⟨2, 1, .ro⟩, ⟨3, 1, .ro⟩, ⟨16, 16, .ro⟩]⟩]

/-- Access rows of the COR block. -/
def regRowsCor : List RegRow := [
  ⟨0x1800, 96, 0, 1, [⟨0, 12, .live⟩, ⟨12, 16, .live⟩]⟩,
  ⟨0x1860, 96, 0, 1, [⟨0, 2, .rw⟩, ⟨2, 2, .rw⟩]⟩]

/-- Access rows of the FBK block. -/
def regRowsFbk : List RegRow := [
  ⟨0x1900, 1, 32, 8, [⟨0, 1, .seal⟩, ⟨1, 1, .seal⟩, ⟨2, 6, .seal⟩, ⟨8, 8, .seal⟩]⟩,
  ⟨0x1901, 1, 32, 8, [⟨0, 16, .seal⟩, ⟨16, 16, .seal⟩]⟩,
  ⟨0x1902, 1, 32, 8, [⟨0, 40, .seal⟩]⟩,
  ⟨0x1903, 1, 32, 8, [⟨0, 1, .wo⟩]⟩,
  ⟨0x1904, 1, 32, 8, [⟨0, 1, .ro⟩, ⟨1, 1, .ro⟩, ⟨2, 1, .w1c⟩, ⟨3, 1, .w1c⟩, ⟨4, 1, .ro⟩, ⟨5, 1, .ro⟩, ⟨6, 1, .ro⟩, ⟨7, 1, .w1c⟩]⟩,
  ⟨0x1905, 1, 32, 8, [⟨0, 40, .ro⟩]⟩,
  ⟨0x1906, 1, 32, 8, [⟨0, 40, .ro⟩]⟩,
  ⟨0x1907, 1, 32, 8, [⟨0, 40, .ro⟩]⟩,
  ⟨0x1908, 1, 32, 8, [⟨0, 16, .ro⟩, ⟨16, 16, .ro⟩, ⟨32, 8, .ro⟩]⟩,
  ⟨0x1909, 1, 32, 8, [⟨0, 16, .ro⟩]⟩,
  ⟨0x190A, 1, 32, 8, [⟨0, 16, .ro⟩, ⟨16, 16, .ro⟩, ⟨39, 1, .wo⟩]⟩]

/-- Access rows of the ENG block. -/
def regRowsEng : List RegRow := [
  ⟨0x1A00, 1, 16, 10, [⟨0, 3, .ro⟩, ⟨3, 3, .ro⟩, ⟨6, 1, .ro⟩, ⟨7, 1, .ro⟩, ⟨8, 1, .w1c⟩, ⟨9, 1, .w1c⟩, ⟨10, 1, .w1c⟩, ⟨11, 1, .ro⟩, ⟨16, 16, .ro⟩]⟩,
  ⟨0x1A01, 1, 16, 10, [⟨0, 16, .ro⟩, ⟨16, 16, .ro⟩, ⟨39, 1, .wo⟩]⟩,
  ⟨0x1A02, 1, 16, 10, [⟨0, 2, .ro⟩, ⟨2, 1, .ro⟩, ⟨3, 3, .ro⟩, ⟨16, 16, .ro⟩, ⟨39, 1, .wo⟩]⟩,
  ⟨0x1A03, 1, 16, 10, [⟨0, 1, .ro⟩, ⟨1, 1, .ro⟩, ⟨8, 24, .ro⟩, ⟨32, 7, .ro⟩]⟩,
  ⟨0x1A04, 1, 16, 10, [⟨0, 16, .ro⟩, ⟨16, 16, .ro⟩, ⟨32, 1, .ro⟩, ⟨39, 1, .wo⟩]⟩,
  ⟨0x1A05, 1, 16, 10, [⟨0, 16, .ro⟩, ⟨16, 10, .ro⟩, ⟨26, 3, .ro⟩]⟩,
  ⟨0x1A06, 1, 16, 10, [⟨0, 1, .wdnWo⟩]⟩,
  ⟨0x1AA0, 1, 0, 1, [⟨0, 1, .wdn⟩, ⟨8, 8, .wdn⟩]⟩,
  ⟨0x1AA1, 1, 0, 1, [⟨0, 4, .ro⟩, ⟨4, 4, .ro⟩, ⟨8, 1, .w1c⟩, ⟨9, 1, .w1c⟩]⟩,
  ⟨0x1AA2, 1, 0, 1, [⟨0, 20, .ro⟩, ⟨20, 16, .ro⟩, ⟨39, 1, .wo⟩]⟩,
  ⟨0x1AA3, 1, 0, 1, [⟨0, 3, .ro⟩, ⟨3, 1, .ro⟩, ⟨4, 12, .ro⟩, ⟨16, 2, .ro⟩, ⟨18, 16, .ro⟩, ⟨34, 6, .ro⟩]⟩,
  ⟨0x1AA4, 1, 0, 1, [⟨0, 4, .ro⟩, ⟨4, 4, .ro⟩, ⟨8, 10, .ro⟩, ⟨18, 8, .ro⟩]⟩,
  ⟨0x1AA5, 1, 0, 1, [⟨0, 4, .ro⟩, ⟨4, 1, .ro⟩, ⟨5, 3, .ro⟩, ⟨8, 3, .ro⟩, ⟨11, 1, .ro⟩, ⟨12, 1, .ro⟩, ⟨16, 14, .ro⟩, ⟨30, 1, .ro⟩, ⟨31, 1, .ro⟩, ⟨32, 8, .ro⟩]⟩,
  ⟨0x1AA6, 1, 0, 1, [⟨0, 8, .ro⟩]⟩]

/-- Access rows of the CON block. -/
def regRowsCon : List RegRow := [
  ⟨0x1B00, 1, 0, 1, [⟨0, 20, .rw⟩, ⟨20, 2, .wdn⟩, ⟨22, 2, .wdn⟩, ⟨24, 2, .rw⟩, ⟨26, 8, .rw⟩]⟩,
  ⟨0x1B01, 1, 0, 1, [⟨0, 12, .wdn⟩]⟩,
  ⟨0x1B02, 1, 0, 1, [⟨0, 17, .w1c⟩, ⟨17, 5, .ro⟩, ⟨22, 16, .ro⟩, ⟨39, 1, .wo⟩]⟩,
  ⟨0x1B03, 1, 0, 1, [⟨0, 5, .ro⟩, ⟨5, 2, .ro⟩, ⟨7, 16, .ro⟩, ⟨39, 1, .wo⟩]⟩,
  ⟨0x1B04, 1, 0, 1, [⟨0, 12, .ro⟩, ⟨12, 8, .ro⟩, ⟨20, 19, .ro⟩, ⟨39, 1, .wo⟩]⟩,
  ⟨0x1B05, 1, 0, 1, [⟨0, 16, .ro⟩, ⟨16, 16, .ro⟩, ⟨39, 1, .wo⟩]⟩,
  ⟨0x1B10, 17, 0, 1, [⟨0, 16, .seal⟩]⟩]

/-- Access rows of the CAN block. -/
def regRowsCan : List RegRow := [
  ⟨0x1C00, 1, 128, 4, [⟨0, 1, .ro⟩, ⟨1, 1, .seal⟩, ⟨2, 1, .seal⟩, ⟨3, 1, .seal⟩, ⟨4, 1, .seal⟩, ⟨5, 2, .seal⟩, ⟨7, 5, .seal⟩, ⟨12, 1, .ro⟩, ⟨13, 1, .rw⟩, ⟨14, 1, .wo⟩]⟩,
  ⟨0x1C01, 1, 128, 4, [⟨0, 9, .seal⟩, ⟨9, 8, .seal⟩, ⟨17, 7, .seal⟩, ⟨24, 7, .seal⟩]⟩,
  ⟨0x1C02, 1, 128, 4, [⟨0, 5, .seal⟩, ⟨5, 5, .seal⟩, ⟨10, 4, .seal⟩, ⟨14, 4, .seal⟩, ⟨18, 7, .seal⟩, ⟨25, 1, .seal⟩]⟩,
  ⟨0x1C03, 1, 128, 4, [⟨0, 2, .ro⟩, ⟨2, 1, .ro⟩, ⟨3, 1, .ro⟩, ⟨4, 8, .ro⟩, ⟨12, 9, .ro⟩, ⟨21, 8, .ro⟩, ⟨29, 3, .ro⟩, ⟨32, 1, .ro⟩, ⟨33, 7, .ro⟩]⟩,
  ⟨0x1C04, 1, 128, 4, [⟨0, 12, .ro⟩, ⟨12, 12, .ro⟩, ⟨24, 12, .ro⟩, ⟨39, 1, .wo⟩]⟩,
  ⟨0x1C05, 1, 128, 4, [⟨0, 12, .ro⟩, ⟨12, 12, .ro⟩, ⟨24, 12, .ro⟩, ⟨36, 1, .w1c⟩, ⟨37, 1, .w1c⟩, ⟨39, 1, .wo⟩]⟩,
  ⟨0x1C06, 1, 128, 4, [⟨0, 3, .wo⟩, ⟨4, 3, .wo⟩]⟩,
  ⟨0x1C07, 1, 128, 4, [⟨0, 3, .ro⟩, ⟨3, 1, .ro⟩, ⟨4, 1, .ro⟩, ⟨5, 1, .ro⟩, ⟨6, 1, .ro⟩, ⟨7, 1, .ro⟩, ⟨8, 3, .ro⟩, ⟨11, 1, .ro⟩, ⟨12, 1, .ro⟩, ⟨13, 1, .ro⟩, ⟨14, 1, .ro⟩, ⟨15, 1, .ro⟩, ⟨16, 3, .ro⟩, ⟨19, 1, .ro⟩, ⟨20, 1, .ro⟩, ⟨21, 1, .ro⟩, ⟨22, 1, .ro⟩, ⟨23, 1, .ro⟩, ⟨24, 6, .ro⟩]⟩,
  ⟨0x1C08, 1, 128, 4, [⟨0, 40, .ro⟩]⟩,
  ⟨0x1C09, 1, 128, 4, [⟨0, 40, .ro⟩]⟩,
  ⟨0x1C0A, 1, 128, 4, [⟨0, 6, .rw⟩]⟩,
  ⟨0x1C0B, 1, 128, 4, [⟨0, 29, .seal⟩, ⟨29, 1, .seal⟩, ⟨30, 3, .seal⟩]⟩,
  ⟨0x1C0C, 1, 128, 4, [⟨0, 29, .seal⟩]⟩,
  ⟨0x1C0D, 1, 128, 4, [⟨0, 19, .seal⟩, ⟨19, 8, .seal⟩, ⟨27, 1, .seal⟩]⟩,
  ⟨0x1C0E, 1, 128, 4, [⟨0, 8, .rw⟩, ⟨8, 8, .ro⟩]⟩,
  ⟨0x1C0F, 1, 128, 4, [⟨0, 6, .ro⟩, ⟨6, 1, .ro⟩, ⟨7, 1, .ro⟩, ⟨8, 1, .ro⟩, ⟨9, 1, .ro⟩]⟩,
  ⟨0x1C10, 1, 128, 4, [⟨0, 29, .rw⟩, ⟨29, 1, .rw⟩, ⟨30, 1, .rw⟩, ⟨31, 1, .rw⟩]⟩,
  ⟨0x1C11, 1, 128, 4, [⟨0, 4, .rw⟩]⟩,
  ⟨0x1C12, 13, 128, 4, [⟨0, 40, .rw⟩]⟩,
  ⟨0x1C1F, 1, 128, 4, [⟨0, 40, .ro⟩]⟩,
  ⟨0x1C20, 1, 128, 4, [⟨0, 29, .rw⟩, ⟨29, 1, .rw⟩, ⟨30, 1, .rw⟩, ⟨31, 1, .rw⟩]⟩,
  ⟨0x1C21, 1, 128, 4, [⟨0, 4, .rw⟩]⟩,
  ⟨0x1C22, 13, 128, 4, [⟨0, 40, .rw⟩]⟩,
  ⟨0x1C2F, 1, 128, 4, [⟨0, 40, .ro⟩]⟩,
  ⟨0x1C30, 1, 128, 4, [⟨0, 29, .rw⟩, ⟨29, 1, .rw⟩, ⟨30, 1, .rw⟩, ⟨31, 1, .rw⟩]⟩,
  ⟨0x1C31, 1, 128, 4, [⟨0, 4, .rw⟩]⟩,
  ⟨0x1C32, 13, 128, 4, [⟨0, 40, .rw⟩]⟩,
  ⟨0x1C3F, 1, 128, 4, [⟨0, 40, .ro⟩]⟩,
  ⟨0x1C40, 16, 128, 4, [⟨0, 40, .ro⟩]⟩,
  ⟨0x1C50, 16, 128, 4, [⟨0, 40, .ro⟩]⟩]

/-- Access rows of the JNL block. -/
def regRowsJnl : List RegRow := [
  ⟨0x1E00, 1, 0, 1, [⟨0, 4, .ro⟩, ⟨4, 8, .ro⟩, ⟨16, 24, .ro⟩]⟩,
  ⟨0x1E01, 1, 0, 1, [⟨0, 11, .ro⟩, ⟨11, 7, .ro⟩, ⟨18, 2, .ro⟩, ⟨20, 9, .ro⟩]⟩,
  ⟨0x1E02, 1, 0, 1, [⟨0, 20, .ro⟩, ⟨20, 16, .ro⟩, ⟨39, 1, .wo⟩]⟩,
  ⟨0x1E03, 1, 0, 1, [⟨0, 16, .ro⟩, ⟨16, 16, .ro⟩, ⟨39, 1, .wo⟩]⟩,
  ⟨0x1E04, 1, 0, 1, [⟨0, 8, .ro⟩, ⟨8, 24, .ro⟩, ⟨32, 8, .ro⟩]⟩,
  ⟨0x1E05, 1, 0, 1, [⟨0, 8, .ro⟩, ⟨8, 24, .ro⟩, ⟨32, 8, .ro⟩]⟩,
  ⟨0x1E06, 1, 0, 1, [⟨0, 32, .ro⟩, ⟨32, 8, .ro⟩]⟩,
  ⟨0x1E07, 1, 0, 1, [⟨0, 7, .ro⟩, ⟨7, 1, .w1c⟩, ⟨8, 16, .ro⟩, ⟨39, 1, .wo⟩]⟩,
  ⟨0x1E40, 64, 0, 1, [⟨0, 40, .wo⟩]⟩,
  ⟨0x1E80, 64, 0, 1, [⟨0, 8, .ro⟩, ⟨8, 24, .ro⟩, ⟨32, 1, .ro⟩, ⟨33, 1, .ro⟩, ⟨34, 3, .ro⟩, ⟨37, 1, .ro⟩]⟩]

/-- Access rows of the THM block. -/
def regRowsThm : List RegRow := [
  ⟨0x1F00, 1, 0, 1, [⟨0, 12, .ro⟩, ⟨12, 12, .ro⟩, ⟨24, 12, .ro⟩, ⟨39, 1, .wo⟩]⟩,
  ⟨0x1F01, 1, 0, 1, [⟨0, 8, .wdn⟩, ⟨8, 8, .wdn⟩, ⟨16, 8, .wdn⟩, ⟨24, 5, .wdn⟩, ⟨29, 5, .wdn⟩, ⟨34, 5, .wdn⟩]⟩,
  ⟨0x1F02, 1, 0, 1, [⟨0, 16, .wdn⟩, ⟨16, 16, .wdn⟩]⟩,
  ⟨0x1F03, 1, 0, 1, [⟨0, 1, .ro⟩, ⟨1, 1, .ro⟩, ⟨2, 1, .ro⟩, ⟨3, 1, .ro⟩, ⟨4, 1, .ro⟩, ⟨5, 1, .ro⟩, ⟨8, 17, .ro⟩]⟩]

/-- Access rows of the DIE block. -/
def regRowsDie : List RegRow := [
  ⟨0x1F80, 1, 0, 1, [⟨0, 16, .ro⟩, ⟨16, 16, .ro⟩]⟩,
  ⟨0x1F81, 1, 0, 1, [⟨0, 8, .w1c⟩, ⟨8, 16, .ro⟩, ⟨39, 1, .wo⟩]⟩,
  ⟨0x1F82, 1, 0, 1, [⟨0, 1, .ro⟩, ⟨1, 1, .w1c⟩, ⟨2, 1, .w1c⟩, ⟨8, 8, .ro⟩]⟩,
  ⟨0x1F83, 1, 0, 1, [⟨0, 3, .ro⟩, ⟨3, 3, .ro⟩, ⟨6, 4, .ro⟩, ⟨10, 16, .ro⟩]⟩,
  ⟨0x1F84, 1, 0, 1, [⟨0, 3, .ro⟩, ⟨3, 1, .ro⟩, ⟨4, 8, .ro⟩, ⟨12, 8, .ro⟩]⟩,
  ⟨0x1F85, 1, 0, 1, [⟨0, 1, .ro⟩, ⟨1, 1, .ro⟩, ⟨2, 1, .w1c⟩, ⟨3, 1, .w1c⟩, ⟨4, 1, .ro⟩]⟩]

/-- Access rows of the WDN block. -/
def regRowsWdn : List RegRow := [
  ⟨0x2000, 1, 0, 1, [⟨0, 8, .ro⟩, ⟨8, 8, .ro⟩, ⟨16, 1, .ro⟩, ⟨17, 1, .ro⟩]⟩,
  ⟨0x2001, 1, 0, 1, [⟨0, 8, .rw⟩, ⟨8, 1, .wo⟩, ⟨9, 1, .wo⟩]⟩,
  ⟨0x2002, 1, 0, 1, [⟨0, 2, .ro⟩, ⟨2, 1, .w1c⟩, ⟨8, 8, .ro⟩, ⟨16, 8, .ro⟩, ⟨24, 16, .ro⟩]⟩,
  ⟨0x2004, 8, 0, 1, [⟨0, 40, .rw⟩]⟩,
  ⟨0x200C, 4, 0, 1, [⟨0, 40, .ro⟩]⟩,
  ⟨0x2010, 1, 0, 1, [⟨0, 3, .ro⟩, ⟨3, 4, .ro⟩, ⟨7, 16, .ro⟩]⟩,
  ⟨0x2011, 1, 0, 1, [⟨0, 8, .w1c⟩, ⟨8, 7, .ro⟩, ⟨15, 16, .ro⟩]⟩,
  ⟨0x2012, 1, 0, 1, [⟨0, 8, .wdn⟩]⟩]

/-- Access rows of the SNT block. -/
def regRowsSnt : List RegRow := [
  ⟨0x2100, 1, 0, 1, [⟨0, 1, .ro⟩, ⟨1, 1, .ro⟩, ⟨2, 1, .ro⟩, ⟨3, 1, .ro⟩, ⟨4, 1, .ro⟩, ⟨5, 1, .ro⟩, ⟨8, 8, .ro⟩, ⟨16, 10, .ro⟩]⟩,
  ⟨0x2101, 1, 0, 1, [⟨0, 5, .rws⟩]⟩,
  ⟨0x2102, 1, 0, 1, [⟨0, 8, .ro⟩, ⟨8, 32, .ro⟩]⟩,
  ⟨0x2103, 1, 0, 1, [⟨0, 40, .ro⟩]⟩,
  ⟨0x2104, 1, 0, 1, [⟨0, 16, .ro⟩, ⟨16, 8, .ro⟩]⟩,
  ⟨0x2105, 1, 0, 1, [⟨0, 11, .ro⟩, ⟨11, 11, .ro⟩]⟩]

/-- Access rows of the HST block. -/
def regRowsHst : List RegRow := [
  ⟨0x2200, 1, 0, 1, [⟨0, 1, .w1c⟩, ⟨1, 1, .w1c⟩, ⟨2, 1, .w1c⟩, ⟨8, 8, .ro⟩, ⟨16, 15, .ro⟩]⟩,
  ⟨0x2201, 1, 0, 1, [⟨0, 16, .ro⟩, ⟨16, 16, .ro⟩, ⟨39, 1, .wo⟩]⟩,
  ⟨0x2202, 1, 0, 1, [⟨0, 40, .rw⟩]⟩,
  ⟨0x2203, 1, 0, 1, [⟨0, 40, .ro⟩]⟩,
  ⟨0x2204, 1, 0, 1, []⟩]

/-- The whole map (R433). -/
def regRows : List RegRow :=
  regRowsSys ++ regRowsGey ++ regRowsEvt ++ regRowsAx ++ regRowsLeg ++ regRowsBrk ++ regRowsVnt ++ regRowsAdc ++ regRowsAcc ++ regRowsCor ++ regRowsFbk ++ regRowsEng ++ regRowsCon ++ regRowsCan ++ regRowsJnl ++ regRowsThm ++ regRowsDie ++ regRowsWdn ++ regRowsSnt ++ regRowsHst

/-- Does address `a` lie in row `r`? -/
def RegRow.has (r : RegRow) (a : Nat) : Bool :=
  if r.stride = 0 then decide (r.addr ≤ a ∧ a < r.addr + r.count)
  else decide (r.addr ≤ a ∧ (a - r.addr) / r.stride < r.insts ∧ (a - r.addr) % r.stride < r.count)

/-- The row of an address, if a register lies there (R433). -/
def regRow (a : Nat) : Option RegRow := regRows.find? (·.has a)

/-- Does the address hold a register? -/
def isReg (a : Nat) : Bool := (regRow a).isSome

/-- The value of a register after power-on reset (R11): every field of every Reset column that is not 0. -/
def regReset (a : Nat) : Word :=
  if 0x1800 ≤ a ∧ a < 0x1860 then 0x0004000000#40  -- COR_CH0–COR_CH95
  else if 0x0400 ≤ a ∧ a < 0x0781 ∧ (a - 0x0400) % 0x80 < 1 then 0x0000000380#40  -- AX_CFG
  else if 0x0405 ≤ a ∧ a < 0x0786 ∧ (a - 0x0405) % 0x80 < 1 then 0x0000000018#40  -- AX_CSTAT
  else if a = 0x1AA1 then 0x0000000088#40  -- ENG_PSTAT
  else if a = 0x1AA4 then 0x0000000088#40  -- ENG_PROM
  else if a = 0x1B00 then 0x0155FAAAAA#40  -- CON_PRIO
  else if a = 0x1B01 then 0x0000000400#40  -- CON_HOLD
  else if 0x1C03 ≤ a ∧ a < 0x1D84 ∧ (a - 0x1C03) % 0x80 < 1 then 0x0000000003#40  -- CAN_STAT
  else if a = 0x1F01 then 0x1084A08C82#40  -- THM_LIM
  else if a = 0x1F02 then 0x0040000CCD#40  -- THM_SLOPE
  else if a = 0x1F03 then 0x0001000000#40  -- THM_STAT
  else if a = 0x1F84 then 0x0000000008#40  -- DIE_RSTC
  else if a = 0x1D80 then 0x0000001000#40  -- CAN_CTL of C3: PRIV reads 1 (R358)
  else if a = 0x1B1A then 0xC000#40 else if a = 0x1B1B then 0xFFFF#40 else if a = 0x1B1C then 0xFFFF#40  -- CON_MAP10 to 12
  else 0#40

end Sys2Proof.Machine
end

