-- ==== Sys2Proof/Machine/State.lean ====
section
/-! DEFINITION. The state of the block as plain data: the register file, everything that the chapters give the block
beyond its registers, the Sinter array and the queue of waiting commands. Sparse tables are lists of key and value in
the canonical form of Machine/Bits.lean. -/

namespace Sys2Proof.Machine

/-! ### Authority, stop actions (R13, R23, R25) -/

/-- Authority state of an axis on one die (R417). -/
inductive Auth where
  | safe | armed | run
  deriving DecidableEq, Repr, Inhabited

/-- Stop actions that the Vent die applies (R23, R421). `none` is the action of an axis that was only ARMED. -/
inductive StopAct where
  | none | coast | shortLow | shortHigh
  deriving DecidableEq, Repr, Inhabited

/-- The rows of R25, from the lowest precedence to the highest. `idle` means that no stop stands. -/
inductive Cause where
  | idle | other | link | bstuv | tsd | vds
  deriving DecidableEq, Repr, Inhabited

/-! ### Time (R6, R62) -/

/-- The core clock: cycles of 2.5 ns, the cycle of the last release of reset, from which the time base counts, and the
cycle of the tick that opened the frame. -/
structure Clock where
  now : Nat := 0
  base : Nat := 0
  frameStart : Nat := 0
  ticked : Bool := false
  deriving DecidableEq, Repr, Inhabited

/-! ### Supplies and resets (chapter 19) -/

/-- Reset conditions that hold the control-die logic (R410), the warden's start-up state and the retention record. -/
structure SysState where
  inReset : Bool := true
  vcoreLow : Bool := true
  vddaLow : Bool := true
  vioLow : Bool := true
  pllBad : Bool := true
  /-- Level of the TESTEN pin: a high level holds the control-die logic in reset (R440). -/
  testen : Bool := false
  /-- VIO and VDDA below their warning thresholds (R409). -/
  vioWarn : Bool := true
  vddaWarn : Bool := true
  /-- Cause of a warm or watchdog reset that waits for a programming pulse to end (R399). -/
  held : Option Nat := none
  /-- Host-push boot selected by the BOOTMODE pins, sampled at the release (R440). -/
  bootmode : Nat := 0
  portUp : Bool := false
  calInit : Bool := true
  sealed : Bool := false
  /-- SHA-256 digest of the image whose journal stands in the retention domain (R60). -/
  retDigest : Option Nat := none
  deriving DecidableEq, Repr, Inhabited

/-! ### Geyser (chapter 3) -/

/-- A commit between GO and its swap (R69): whether the validation has ended, whether it reached the guard, and how many
ticks away the swap is. -/
structure Commit where
  validated : Bool
  deferred : Bool
  ticksLeft : Nat
  deriving DecidableEq, Repr, Inhabited

/-- The frame scheduler beyond its registers. -/
structure GeyState where
  /-- Slots that have started in this frame, one bit each. -/
  started : Nat := 0
  /-- Axes whose program has started at its slot in this frame, one bit each. -/
  ran : Nat := 0
  /-- Slots that are late and waiting for their resource (R67). -/
  late : Nat := 0
  commit : Option Commit := none
  /-- Core cycle of the last SYNCIN edge, while edges arrive (R73). -/
  master : Option Nat := none
  inCnt : Nat := 0
  outCnt : Nat := 0
  /-- The tick whose SYNCOUT pulse has not ended (R72). -/
  syncAt : Option Nat := none
  /-- Length of the frame that ended at the last tick (R188). -/
  prevLen : Nat := 0
  /-- The throttle scale s16 of the last tick (R429). -/
  s16 : Nat := 65536
  deriving DecidableEq, Repr, Inhabited

/-! ### Leg units (chapter 4) -/

/-- The steps of a refresh sequence (R90): waiting for the low gate's turn-on, low gate on, waiting for the high gate's
turn-on; `due` has still to switch the high gate off. -/
inductive RefStep where
  | off | due | lowWait | low | highWait
  deriving DecidableEq, Repr, Inhabited

/-- A phase leg unit beyond its registers: command lines, pending turn-on, float requests, refresh sequence. -/
structure LegUnit where
  hcmd : Bool := false
  lcmd : Bool := false
  /-- A turn-on waiting for its dead time: `true` the high gate, `false` the low gate, and the fine step at which the dead
  time ends, counted from power-on (R81). -/
  pend : Option Bool := none
  pendAt : Nat := 0
  /-- The axis has left RUN; both lines fall in the next core cycle (R98). -/
  leaving : Bool := false
  /-- The commutation unit's float request (R87). -/
  cfloat : Bool := false
  /-- A duty written since RUN entry stands in LEG_SDUTY (R88). -/
  written : Bool := false
  /-- The low gate was on at some time in the running carrier (R89). -/
  lowSeen : Bool := false
  ref : RefStep := .off
  /-- A refresh that fell due while the leg floated (R91). -/
  refDue : Bool := false
  /-- LEG_STAT.MINP as it stood before the edges of the running carrier were last computed (R82, R260). -/
  minpWas : Bool := false
  /-- Core cycle at which the running carrier began, and its length (R78). -/
  cAt : Nat := 0
  cLen : Nat := 0
  /-- Fine steps, from power-on, at which the high command last rose (R84) and at which the low command of the refresh in
  progress rose (R90). -/
  hOnAt : Nat := 0
  lOnAt : Nat := 0
  deriving DecidableEq, Repr, Inhabited

/-- A brake leg unit beyond its registers (R95): the largest duty written in this frame. -/
structure BrakeUnit where
  next : Nat := 0
  wrote : Bool := false
  deriving DecidableEq, Repr, Inhabited

/-! ### The Vent die (chapters 5 and 19) -/

/-- Configuration of one leg held by the Vent die (R57): the words of LEG_CFG and LEG_GDRV, or of BRK_CFG and
BRK_GDRV. -/
structure VLegCfg where
  cfg : Word := 0
  gdrv : Word := 0
  deriving DecidableEq, Repr, Inhabited

/-- One gate of a phase leg with its VDS comparator (R99, R106). -/
structure VGate where
  on : Bool := false
  /-- The last turn-off used the soft-off step ISOFT. -/
  soft : Bool := false
  /-- The gate has been on, so that its comparator watched. -/
  watch : Bool := false
  /-- Core cycle at which the last turn-off began. -/
  offAt : Nat := 0
  /-- Core cycle at which the gate was last commanded off, on or not (R85). -/
  cmdOff : Option Nat := none
  /-- VDSH or VDSL. -/
  vds : Bool := false
  deriving DecidableEq, Repr, Inhabited

/-- One phase leg on the Vent die. -/
structure VLeg where
  h : VGate := {}
  l : VGate := {}
  /-- Both gates held off by the interlock until one command falls (R86). -/
  ilock : Bool := false
  /-- The high gate is held off for the rest of the carrier (R104), or after BSTUV (R105). -/
  inh : Bool := false
  /-- A turn-on of the Vent die itself, or one that it holds back, waiting for its dead time: `true` the high gate; and the
  core cycle at which the dead time ends (R85, R113). -/
  pend : Option Bool := none
  pendAt : Nat := 0
  /-- A refresh sequence of a Vent-applied SHORT_HIGH, the core cycle at which its low gate turned on, and how many
  sequences the standing action has had (R92). -/
  ref : RefStep := .off
  lOnAt : Nat := 0
  refs : Nat := 0
  bstuv : Bool := false
  xlockf : Bool := false
  blkcnt : Nat := 0
  bstinh : Nat := 0
  dtfix : Nat := 0
  xlock : Nat := 0
  /-- XLOCK at the last valid heartbeat, and the frames in a row in which it rose (R111). -/
  xlockHb : Nat := 0
  xlockRun : Nat := 0
  deriving DecidableEq, Repr, Inhabited

/-- One brake leg on the Vent die. -/
structure VBrake where
  cmp : Bool := false
  gate : Bool := false
  soft : Bool := false
  /-- Level of the brake command line (R95). -/
  cmd : Bool := false
  /-- The 10 µs hold after a short (R112). -/
  hold : Bool := false
  /-- Core cycle at which the last turn-off began (R96, R106). -/
  offAt : Option Nat := none
  sc : Bool := false
  sccnt : Nat := 0
  clamps : Nat := 0
  deriving DecidableEq, Repr, Inhabited

/-- One axis on the Vent die. -/
structure VAxis where
  st : Auth := .safe
  act : StopAct := .none
  cause : Cause := .idle
  /-- Core cycle of the decision of R113 for the standing action. -/
  actAt : Nat := 0
  trip : Bool := false
  link : Bool := false
  tsd : Bool := false
  gang : Bool := false
  stops : Nat := 0
  /-- Open arming challenge: the warden's N1 and the die's N2 (R418). -/
  chal : Option (Nat × Nat) := none
  /-- Valid heartbeats since ARM_ACK that carried a state other than RUN (R420). -/
  noRun : Nat := 0
  deriving DecidableEq, Repr, Inhabited

/-- The first two short-circuit detections (R108), with the first's time stamp in 2.5 ns steps. -/
structure VFirst where
  valid1 : Bool := false
  leg1 : Nat := 0
  side1 : Bool := false
  stamp1 : Nat := 0
  valid2 : Bool := false
  leg2 : Nat := 0
  side2 : Bool := false
  sim : Bool := false
  delta : Nat := 0
  deriving DecidableEq, Repr, Inhabited

/-- The configuration sent over the Vent link beside the leg words: TSD and HSD (R426), policies and fallbacks are in
LEG_CFG, the axes' pairing (R42), brake axes in BRK_CFG. -/
structure VentCfg where
  legs : List (Nat × VLegCfg) := []
  /-- Brake legs; `none` for a brake leg without a LEG record (R93). -/
  brakes : List (Nat × Option VLegCfg) := []
  tsd : Nat := 160
  hsd : Nat := 4
  /-- Axes of six-phase and parallel pairs: bit k set when A(2⌊k/2⌋) and its neighbour are ganged. -/
  gang : Nat := 0
  deriving DecidableEq, Repr, Inhabited

/-- The boundary-scan and TAP state (R456 to R461). -/
inductive TapInstr where
  | extest | sample | idcode | clamp | highz | bypass
  deriving DecidableEq, Repr, Inhabited

/-- The TAP and the boundary cells. -/
structure Tap where
  /-- The instruction register: IDCODE after a TAP reset. -/
  ir : BitVec 4 := 2
  /-- The bits that the last pass through Capture-IR has loaded and shifted out. -/
  irOut : Option (BitVec 4) := none
  /-- Update latches of the 91 boundary cells (R458). -/
  latch : BitVec 91 := 0
  /-- The selected data register as it was last captured. -/
  sample : BitVec 91 := 0
  /-- A high-voltage node stands above 5 V (R460). -/
  hv : Bool := false
  deriving DecidableEq, Repr, Inhabited

/-- The Vent die, with its own power, its own oscillator and its own resets. -/
structure Vent where
  inReset : Bool := true
  cfgOk : Bool := false
  vrst : Bool := true
  cfg : VentCfg := {}
  axes : List (Nat × VAxis) := []
  legs : List (Nat × VLeg) := []
  brakes : List (Nat × VBrake) := []
  first : VFirst := {}
  vlow : Bool := true
  vhigh : Bool := false
  vdrv : Nat := 0
  /-- VDRV currents of the last 64 frames, newest first (R119). -/
  iavg : List Nat := []
  /-- Latest diode reading in 0.125 °C, and whether the diode reads open or shorted (R427). -/
  temp : Option Int := none
  dfail : Bool := false
  /-- The reading before was at or above TSD (R430); the TSD latch. -/
  tsdPrev : Bool := false
  tsdLatch : Bool := false
  /-- Period carried in the last valid heartbeat, in core cycles; valid heartbeats in a row (R16, R425). -/
  hbPeriod : Nat := 0
  hbGood : Nat := 0
  /-- Frame counter of the last valid heartbeat (R425). -/
  hbFrame : Nat := 0
  /-- In scan mode, the levels that the cells give the gates (R459, R460). -/
  scan : Option (BitVec 91) := none
  deriving DecidableEq, Repr, Inhabited

/-! ### The Vent link and the control die's side of it -/

/-- A heartbeat in flight (R15, R421): frame counter, period, the states carried and the stop requests repeated. -/
structure Heartbeat where
  fcnt : Nat
  period : Nat
  states : List Auth
  stops : List (Option StopAct)
  deriving DecidableEq, Repr, Inhabited

/-- The stages of an arming exchange (R418). `lost` is one that a heartbeat loss has met before its ARM_ACK (R432). -/
inductive ArmStage where
  | req | chal | conf | done | nak | lost
  deriving DecidableEq, Repr, Inhabited

/-- The warden's open arming exchange. `n2` is the Vent die's nonce, or its refusal reason in stage `nak`. -/
structure ArmX where
  axis : Fin 8
  n1 : Nat
  n2 : Nat := 0
  stage : ArmStage := .req
  /-- A packet with wrong nonces was discarded (NONCE instead of TIMEOUT). -/
  badNonce : Bool := false
  deriving DecidableEq, Repr, Inhabited

/-- A fault clear that the warden has sent and the Vent die has not confirmed (R116): the axes and brake legs named, and
the faults that passed the warden's check, as masks of legs, axes and brake legs. -/
structure ClrReq where
  axes : Nat
  brakes : Nat
  vdsh : Nat
  vdsl : Nat
  bstuv : Nat
  xlockf : Nat
  trip : Nat
  link : Nat
  tsd : Nat
  sc : Nat
  deriving DecidableEq, Repr, Inhabited

/-- Packets in flight and the control die's view of the link. -/
structure Link where
  hb : Option Heartbeat := none
  status : Option Vent := none
  linkdown : Bool := false
  /-- STOP packets in flight, per axis (R421). -/
  stopPkt : List (Nat × Option StopAct) := []
  /-- Stop requests repeated in every heartbeat until the axis shows SAFE. -/
  stopReq : List (Nat × Option StopAct) := []
  /-- The configuration in flight, its sending number, and whether a resend occupies the link (R57, R59). -/
  cfg : Option VentCfg := none
  cfgTry : Nat := 0
  /-- States carried in the heartbeat whose status packet is awaited. -/
  await : Option (List Auth) := none
  missed : Nat := 0
  /-- The awaited status packet has been counted as lost already (R424). -/
  lost : Bool := false
  /-- A packet with VRST = 1 would show a Vent-die reset (R425). -/
  rstArm : Bool := false
  /-- The last valid status packet. -/
  last : Option Vent := none
  /-- A valid temperature reading has been taken since the last reset (R427). -/
  seenTemp : Bool := false
  arm : Option ArmX := none
  /-- Axes reported ARMED by an ARM_ACK since the last status packet (R417). -/
  acked : Nat := 0
  clr : Option ClrReq := none
  /-- VNT_FIRST shows detections from before a Vent-die reset, kept until they are cleared (R120). -/
  firstKept : Bool := false
  deriving DecidableEq, Repr, Inhabited

/-! ### Commutation units and start sequencers (chapters 11 and 12) -/

/-- Unit and sequencer states (R251). -/
inductive CState where
  | idle | catch_ | start | track | lost | brake | enc
  deriving DecidableEq, Repr, Inhabited

/-- A zero-crossing detector (R241): arming sign, last evaluated value of that sign with its stamp, candidate stamp. -/
structure Det where
  armed : Option Bool := none
  d1 : Int := 0
  t1 : Nat := 0
  cand : Option Nat := none
  deriving DecidableEq, Repr, Inhabited

/-- An open float window (R238): its row of the R235 table, whether a valid crossing was confirmed in it. -/
structure Window where
  row : Nat
  got : Bool := false
  deriving DecidableEq, Repr, Inhabited

/-- A tapped sample of one phase (R240): its value and the opening and closing cycles of its sampling window. -/
structure VTap where
  v : Int := 0
  opened : Nat := 0
  closed : Nat := 0
  deriving DecidableEq, Repr, Inhabited

/-- A valid crossing (R242). -/
structure Crossing where
  stamp : Nat
  phase : Nat
  pol : Bool
  dirx : Bool
  seq : Nat
  deriving DecidableEq, Repr, Inhabited

/-- The commutation unit and start sequencer of one axis beyond its registers. -/
structure CommUnit where
  st : CState := .idle
  /-- The 48-bit angle accumulator G and RATE, signed, of 40 bits (R236). -/
  g : Nat := 0
  rate : Int := 0
  wen : Bool := false
  win : Option Window := none
  det : Det := {}
  missc : Nat := 0
  ncr : Nat := 0
  inv : Bool := false
  miss : Bool := false
  seq : Nat := 0
  cx0 : Option Crossing := none
  cx1 : Option Crossing := none
  taps : List (Nat × VTap) := []
  /-- Core cycle at which the float of each phase began. -/
  floatAt : List (Nat × Nat) := []
  /-- Cycles of the latest command edges of the axis's legs, newest first. -/
  edges : List Nat := []
  /-- The detectors of a whole-axis float, one per phase (R253). -/
  dets : List (Nat × Det) := []
  /-- The run of crossings, newest first, as rows of R235 and stamps, and its direction (R254). -/
  run : List (Nat × Nat) := []
  dir : Option Bool := none
  /-- Amplitudes P of tapped samples in a whole-axis float, newest first (R261). -/
  amps : List (Nat × Nat) := []
  /-- Whole-axis float and short requests (R253, R260). -/
  allFloat : Bool := false
  short : Bool := false
  /-- Core cycle at which the state, the catch window or the retry delay, and the brake cycle began. -/
  since : Nat := 0
  cycleAt : Nat := 0
  /-- The start ramp has reached HORATE and is held (R257). -/
  held : Bool := false
  /-- Ticks spent at the held rate, or in LOST. -/
  ticks : Nat := 0
  /-- A re-opened catch window or a retry delay in progress (R259). -/
  wait : Bool := false
  spdC : Nat := 0
  lossBack : Bool := false
  /-- Clamped completed runs in a row (R259). -/
  clRuns : Nat := 0
  /-- Recovery ramp position m (R265). -/
  recov : Option Nat := none
  /-- A RAMP in progress since this core cycle (R266). -/
  ramp : Option Nat := none
  ho : Bool := false
  sync : Bool := false
  deriving DecidableEq, Repr, Inhabited

/-- What the completed run of a frame left for the tick (R237, R234, R269). -/
structure RunOut where
  /-- Report registers written, one bit each. -/
  repMask : Nat := 0
  sreq : Nat := 0
  cl : Bool := false
  fctl : Bool := false
  deriving DecidableEq, Repr, Inhabited

/-- One axis beyond its registers. -/
structure AxisUnit where
  comm : CommUnit := {}
  /-- The frame copy of the LIVE registers (R22), by register address, with the throttle scale s and I_LIM_EFF. -/
  copy : List (Nat × Word) := []
  copyS : Word := 0
  copyCeil : Word := 0
  done : Option RunOut := none
  /-- CL of the last completed run since the seal or the engine's reset (R249). -/
  lastCl : Option Bool := none
  /-- The axis's last run overran; its next run is the first since RUN entry (R176); the frame of its last started run
  (R283). -/
  ovr : Bool := false
  fr : Bool := false
  lastRun : Option Nat := none
  /-- AX_SSTAT and AX_CMEAS as latched at the tick (R268). -/
  sstatTick : Word := 0
  cmeasTick : Word := 0
  deriving DecidableEq, Repr, Inhabited

/-! ### ADC banks, accumulators, feedback units (chapters 6 to 8) -/

/-- One ADC bank beyond its registers. -/
structure BankUnit where
  /-- The pair has started its sequence since the seal (R136, R137). -/
  started : Bool := false
  /-- Entry whose sample is due next, the slice it uses, and a SYNC restart not yet reached (R123, R127). -/
  pos : Nat := 0
  slice : Nat := 0
  restart : Bool := false
  /-- Samples in a row without a change of any estimate (R138). -/
  still : Nat := 0
  /-- Samples in the slope window, and the extremes of the raw code in it (R139). -/
  slopeN : Nat := 0
  rawMin : Int := 0
  rawMax : Int := 0
  deriving DecidableEq, Repr, Inhabited

/-- The live set of one accumulator (R147) and its comparator (R151). -/
structure AccUnit where
  sum : Int := 0
  cnt : Nat := 0
  min : Int := 32767
  max : Int := -32768
  out : Bool := false
  /-- Core cycle of the first latched crossing (R154). -/
  tripAt : Nat := 0
  /-- Core cycle in which a write last cleared the latches, with FIRST and VAL as they stood (R158). -/
  cleared : Option (Nat × Nat × Nat) := none
  deriving DecidableEq, Repr, Inhabited

/-- One feedback unit beyond its registers. -/
structure FbkUnit where
  valid : Bool := false
  /-- A sample pair has been taken since the pair started (R164). -/
  begun : Bool := false
  phi : Nat := 0
  /-- One half of a sample pair: whether it is SIN, its value, and the close of its window. -/
  half : Option (Bool × Int × Nat) := none
  /-- Sample pairs in the CORDIC pipeline, oldest first: SIN, COS, close of the window (R160). -/
  pipe : List (Int × Int × Nat) := []
  /-- REF_OK has fallen while pairs were in the pipeline; REF_OK has fallen since the seal, so that only a REARM makes the
  position valid (R166). -/
  refLoss : Bool := false
  lost : Bool := false
  /-- Out-of-range pairs in a row (R163). -/
  outRun : Nat := 0
  rearm : Bool := false
  dir : Bool := false
  /-- Edges of this frame in each direction, the close of the last pair's window (R167), extremes of M in this frame. -/
  edgeF : Bool := false
  edgeB : Bool := false
  lastAt : Nat := 0
  mMin : Nat := 65535
  mMax : Nat := 0
  /-- Held positions of earlier ticks, newest first, with the edges of the frame each of them ended (R168). -/
  hist : List (Nat × Bool × Bool) := []
  /-- Ticks at which VALID was latched 1 in a row (R169). -/
  validTicks : Nat := 0
  /-- FBK_STAT as it stood at the tick (port FSTAT), and whether a sample pair had been taken by then (R188). -/
  statTick : Word := 0
  begunTick : Bool := false
  /-- SPDSAT as it stood before the tick (R168). -/
  satWas : Bool := false
  deriving DecidableEq, Repr, Inhabited

/-! ### Magma engines, patrol and promotion (chapters 9, 10, 13) -/

/-- What an engine is doing (R179, R276, R283). -/
inductive RunKind where
  | idle | primary | shadow | takeover
  deriving DecidableEq, Repr, Inhabited

/-- An active LOOPI (R210): body start, end address and the return-stack depth at its issue. -/
structure Loop where
  start : Nat
  stop : Nat
  depth : Nat
  deriving DecidableEq, Repr, Inhabited

/-- An outstanding far access (R193): load with its destination, or store with its value, and the address of its
instruction. -/
structure Far where
  load : Bool
  dest : Nat
  addr : Nat
  value : Word
  pc : Nat := 0
  deriving DecidableEq, Repr, Inhabited

/-- Kinds of output items that patrol compares (R277). -/
inductive ItemKind where
  | port | st | stf | done
  deriving DecidableEq, Repr, Inhabited

/-- One item of a run's output stream (R277). -/
structure Item where
  kind : ItemKind
  addr : Nat
  value : Word
  deriving DecidableEq, Repr, Inhabited

/-- How a run ended (R180, R181). -/
inductive RunEnd where
  | none | complete | overrun | ecc | reset
  deriving DecidableEq, Repr, Inhabited

/-- Everything of one run: registers (R174), control flow, far accesses, port writes and the outputs to restore. -/
structure EngRun where
  kind : RunKind := .idle
  /-- The run is still going. -/
  live : Bool := false
  ended : RunEnd := .none
  axis : Fin 8 := 0
  prog : Nat := 0
  /-- Core cycle of the start slot, and the frame counter of the run's frame. -/
  startAt : Nat := 0
  frame : Nat := 0
  /-- Cycles used so far, stalls included (R205, R206), and the cycle from which each register that a far load wrote can
  be read (R193). -/
  cyc : Nat := 0
  ready : List (Nat × Nat) := []
  /-- Cycles of the run from which the far accesses that have been served are no longer outstanding (R193). -/
  served : List Nat := []
  w : List (Nat × Word) := []
  z0 : BitVec 88 := 0
  z1 : BitVec 88 := 0
  /-- Pointers P0 to P3, 16 bits each. -/
  p : List (Nat × Nat) := []
  lc : Nat := 0
  flags : BitVec 16 := 0
  pc : Nat := 0
  stack : List Nat := []
  loop : Option Loop := none
  cpage : Nat := 0
  far : List Far := []
  /-- A far access waits at issue (R193); the core cycles of its first and its latest attempt at a full queue (R327). -/
  stalled : Bool := false
  full : Option (Nat × Nat) := none
  /-- Last value written by the run to each port (R187). -/
  ports : List (Nat × Word) := []
  /-- Values at the run's start of the leg shadow duties (with R88's mark), brake duties and registers it wrote (R182). -/
  savedLegs : List (Nat × Word × Bool) := []
  savedBrakes : List (Nat × Nat × Bool) := []
  savedRegs : List (Nat × Word) := []
  faulted : Bool := false
  hang : Bool := false
  parity : Bool := false
  clockBad : Bool := false
  /-- The comparator has found a mismatch on it: no checkpoint follows (R279). -/
  mism : Bool := false
  /-- The run has written IREFD, IREFQ (R232, R234). -/
  irefd : Bool := false
  irefq : Bool := false
  out : RunOut := {}
  /-- The output stream, newest item first (R277). -/
  items : List Item := []
  deriving DecidableEq, Repr, Inhabited

/-- A checkpoint burst under way (R196): the half's first word, the data words and the header that are still to write, the
half, the frame of its run, the word of the half that comes next, and the core cycle of the request for it. -/
structure Burst where
  addr : Nat
  words : List Word
  header : Word
  half : Nat
  frame : Nat
  next : Nat := 0
  since : Nat
  deriving DecidableEq, Repr, Inhabited

/-- One engine: its run and its memories (R177). Partition p of a reserve lies at p × 8,192 and p × 4,096. -/
structure EngUnit where
  run : EngRun := {}
  pmem : List (Nat × Word) := []
  dmem : List (Nat × Word) := []
  /-- The completed run of this frame awaits its checkpoint burst (R196). -/
  ckptDue : Bool := false
  /-- The checkpoint burst under way (R196). -/
  burst : Option Burst := none
  deriving DecidableEq, Repr, Inhabited

/-- A promotion trigger waiting for the warden (R280). -/
structure Trigger where
  eng : Nat
  cause : Nat
  at_ : Nat
  /-- The reserve that found a patrol mismatch (R278). -/
  res : Option Nat := none
  deriving DecidableEq, Repr, Inhabited

/-- What the comparator has found (R277): nothing yet, a match, no verdict, or the index of the first unequal item with the
primary's item. -/
inductive Verdict where
  | open_ | match_ | none_
  | mismatch (index : Nat) (item : Item)
  deriving DecidableEq, Repr, Inhabited

/-- A comparison open in this frame (R277): reserve, axis, and what the comparator has found. -/
structure Cmp where
  res : Nat
  axis : Nat
  found : Verdict := .open_
  deriving DecidableEq, Repr, Inhabited

/-- Patrol and promotion beyond their registers. -/
structure Patrol where
  trig : List Trigger := []
  /-- Reserves that have been assigned an axis and have not yet written a first fresh duty (R285): reserve, axis, trigger
  time. -/
  fresh : List (Nat × Nat × Nat) := []
  /-- The takeover run that waits for its checkpoint copy (R283): reserve and axis. -/
  takeover : List (Nat × Nat) := []
  /-- Comparisons open in this frame, per reserve (R277). -/
  open_ : List Cmp := []
  deriving DecidableEq, Repr, Inhabited

/-! ### Tephra journal (chapter 14) -/

/-- A command in its canonical form (R290), as a journal entry holds it (R303). -/
structure Entry where
  src : Nat
  seq : Nat
  code : Nat
  mask : Nat
  flags : Nat
  arg0 : Word
  arg1 : Word
  /-- Acceptance frame, bits [19:0]. -/
  frame : Nat
  /-- Slot in the ring of entries. -/
  slot : Nat
  /-- Accepted in the frame that runs now (R304). -/
  fresh : Bool
  deriving DecidableEq, Repr, Inhabited

/-- A parsed command with its tag, before acceptance (R290). -/
structure Cmd where
  src : Nat
  seq : Nat
  code : Nat
  mask : Nat
  flags : Nat
  args : List Word
  tag : Option (List Byte)
  deriving DecidableEq, Repr, Inhabited

/-- One status record of a source (R303): sequence, command code and status. -/
structure Status where
  seq : Nat
  code : Nat
  st : Nat
  deriving DecidableEq, Repr, Inhabited

/-- A registered source (R298). The path is 0 for the host port, 1 to 4 for C0 to C3. -/
structure Source where
  src : Nat
  last : Nat
  auth : Bool
  path : Nat
  /-- Ticks since its last new or duplicate command (R300). -/
  idle : Nat
  /-- 256 status records by SEQ[7:0]. -/
  recs : List (Nat × Status)
  deriving DecidableEq, Repr, Inhabited

/-- A pending START or STOP (R305). For a START: the axes still to arm, and those already in RUN. -/
structure PendOp where
  src : Nat
  seq : Nat
  start : Bool
  reqDone : Bool
  mask : Nat
  deriving DecidableEq, Repr, Inhabited

/-- A record of the acknowledgement FIFO (R293). -/
structure Ack where
  src : Nat
  seq : Nat
  st : Nat
  data : Nat
  code : Nat
  deriving DecidableEq, Repr, Inhabited

/-- A batch that has passed its checks and awaits its commit (R302). -/
structure Batch where
  cmds : List Cmd
  path : Nat
  /-- Format of its transfer: FD frames, BRS. -/
  fd : Bool := false
  brs : Bool := false
  deriving DecidableEq, Repr, Inhabited

/-- A partial CAN transfer (R295). -/
structure Transfer where
  src : Nat
  ctl : Nat
  /-- Frames joined so far, and their payloads. -/
  frag : Nat
  bytes : List Byte
  /-- Ticks since its first frame. -/
  ticks : Nat
  deriving DecidableEq, Repr, Inhabited

/-- What the retention domain holds of the journal (R303), as it stood when the engine's reservation opened: a reset that
finds it open leaves this (R304, R333). `clr` is a CLEAR_FAULT that has executed and awaits its confirmation. -/
structure Retained where
  entries : List Entry
  head : Nat
  sources : List (Nat × Option Source)
  ops : List PendOp
  axisRec : List (Nat × Word)
  params : List (Nat × Nat × Word)
  clr : Option (Nat × Nat × Bool)
  deriving DecidableEq, Repr, Inhabited

/-- The journal. Entries, sources, axis records and parameters live in the retention domain (R303). -/
structure Journal where
  /-- Unexecuted entries in acceptance order. -/
  entries : List Entry := []
  /-- Slot number of the next entry in the ring of SIZE entries (R303). -/
  head : Nat := 0
  sources : List (Nat × Option Source) := []
  ops : List PendOp := []
  /-- Axis records: AX_MODE, AX_SETT, AX_SETS, AX_SETP by axis × 4 + i. -/
  axisRec : List (Nat × Word) := []
  /-- Parameter table in the order of last execution, oldest first: address, number of its pair, value. -/
  params : List (Nat × Nat × Word) := []
  /-- 0 both copies, 1 M15 only, 2 M14 only, 3 HALTED (R312). -/
  mirror : Nat := 0
  fifo : List Ack := []
  batches : List Batch := []
  transfers : List Transfer := []
  /-- Axes that the warden still has to arm for a pending START, in order. -/
  toArm : List Nat := []
  /-- CLEAR_FAULT in progress: source, sequence, report wanted. -/
  clr : Option (Nat × Nat × Bool) := none
  /-- Caldera words beyond the 64 of a reservation, or of one that was cut off: the next reservation writes them (R331,
  R332). -/
  unwritten : List (Nat × Word) := []
  /-- The retained state from before the words that are not yet in Caldera (R304). -/
  undo : Option Retained := none
  deriving DecidableEq, Repr, Inhabited

/-! ### Conduit and Caldera (chapter 15) -/

/-- What a request does: a far load or store of an engine, the next word of its checkpoint burst, a burst of `n` words of the
host port or a CAN DMA channel, or the next bank of a reservation. -/
inductive ReqKind where
  | load (dest : Nat) | store (value : Word) | word | bulk (n : Nat) | resv
  deriving DecidableEq, Repr, Inhabited

/-- A request to a bank, with the core cycle of its first attempt, and its first data cycle once it is granted (R324, R327). -/
structure Req where
  req : Nat
  since : Nat
  addr : Nat
  kind : ReqKind
  at_ : Option Nat := none
  deriving DecidableEq, Repr, Inhabited

/-- A reservation of Q10 or Q11 (R329) that has not been released: the banks it has acquired and those it still waits for,
lowest first, its staged writes, the core cycle of its request for the next bank, and of its first acquisition. -/
structure Resv where
  req : Nat
  held : List Nat := []
  banks : List Nat
  staged : List (Nat × Word)
  since : Nat := 0
  from_ : Option Nat := none
  deriving DecidableEq, Repr, Inhabited

/-- The arbiter and the shared memory. -/
structure Conduit where
  /-- Caldera words by address 0 to 524,287; an unlisted word reads as 0 (R318). -/
  mem : List (Nat × Word) := []
  queues : List (Nat × List Req) := []
  resv : List Resv := []
  /-- Addresses of corrected words waiting for their write-back (R319). -/
  wb : List Nat := []
  /-- Words that a read has found uncorrectable and that nothing has written since: they are left as they are (R319). -/
  bad : List Nat := []
  /-- Requester on which each bank is parked (R325). -/
  parked : List (Nat × Option Nat) := []
  /-- First and last data cycle of the latest grant of each bank (R324). -/
  busy : List (Nat × (Nat × Nat)) := []
  /-- The core cycle of the latest write of CON_PRIO, and the levels before it (R326). -/
  prio : Option (Nat × Word) := none
  deriving DecidableEq, Repr, Inhabited

/-! ### CAN controllers (chapter 16) -/

/-- A received element: a frame and the filter that decided it (R354). -/
structure CanElem where
  frame : CanFrame
  filter : Nat
  deriving DecidableEq, Repr, Inhabited

/-- Bus participation of a controller (R338, R357, R358). -/
inductive BusMode where
  | off | waitTick | integrating | on | recovering
  deriving DecidableEq, Repr, Inhabited

/-- A reply frame of the journal (R296, R348): its source, format and priority, its records as sequence, status and data, and
whether the controller's release has made it eligible. -/
structure Reply where
  src : Nat
  fd : Bool
  brs : Bool
  prio : Nat
  recs : List (Nat × Nat × Nat)
  due : Bool := false
  deriving DecidableEq, Repr, Inhabited

/-- One controller beyond its registers. -/
structure CanCtl where
  mode : BusMode := .off
  /-- HALT takes effect when the frame in progress has ended (R358). -/
  halting : Bool := false
  /-- The frame that the controller sends (R337), and whether another node's frame is on the bus, as far as the commands
  show it (R358). -/
  sending : Option CanFrame := none
  rxBusy : Bool := false
  /-- Core cycle of the last request of each transmit buffer (R344). -/
  reqAt : List (Nat × Nat) := []
  /-- FIFO elements, oldest first; PRB; the PRB's holding stage (R351, R353). -/
  fifo : List CanElem := []
  prb : Option CanElem := none
  hold : Option CanElem := none
  /-- Filters 0 to 63: CODE and MASK words (R349). -/
  filters : List (Nat × (Word × Word)) := []
  /-- The reply queue of up to 32 frames, oldest first (R348). -/
  replies : List Reply := []
  /-- TXB2 carries a reply frame. -/
  txReply : Bool := false
  /-- Per source: whether its last accepted transfer came in FD frames, and with BRS (R348), and the priority of its last
  transfer (R294). -/
  srcFmt : List (Nat × (Bool × Bool × Nat)) := []
  /-- Time base at the SOF of the attempt in progress (R342). -/
  sof : Nat := 0
  dmaStop : Bool := false
  /-- Command frames taken from the bus and not yet taken by the parser (R350). -/
  cmdq : List CanFrame := []
  deriving DecidableEq, Repr, Inhabited

/-! ### Host port (chapter 17) -/

/-- A frame of the host port in its parts (R364). -/
structure HFrame where
  rd : Bool
  addr : Nat
  data : Word
  deriving DecidableEq, Repr, Inhabited

/-- The host port beyond its registers. -/
structure HostPort where
  /-- A burst is in progress: its direction, start address and the number of frames so far (R366). -/
  burst : Option (Bool × Nat × Nat) := none
  seqErr : Bool := false
  /-- A reset arrived in this burst: its later frames are not performed (R373). -/
  dead : Bool := false
  /-- The response that the next frame shifts out (R368), as a 64-bit frame, and the last one shifted out. -/
  resp : Option (BitVec 64) := none
  shifted : Option (BitVec 64) := none
  /-- A window access under way (R370), with the page it was made on. -/
  window : Option (HFrame × Nat) := none
  /-- Words of the command window in this burst, and whether the batch is spoiled (R372). -/
  words : List Word := []
  jnl : Bool := false
  spoiled : Bool := false
  deriving DecidableEq, Repr, Inhabited

/-! ### The Vuson image (chapter 2) -/

/-- One TOPOLOGY entry (R41). -/
structure Topo where
  en : Bool := false
  kind : Nat := 0
  engine : Nat := 0xFF
  prog : Nat := 0xFF
  pair : Nat := 0xFF
  fbk : Nat := 0xFF
  brake : Nat := 0xFF
  drive : Nat := 0xFF
  deriving DecidableEq, Repr, Inhabited

/-- What the image declares of a program (R45). -/
structure Prog where
  wcet : Nat := 0
  codeN : Nat := 0
  dataN : Nat := 0
  ckpt : Nat := 0
  code : List Word := []
  data : List Word := []
  deriving DecidableEq, Repr, Inhabited

/-- A LIMITS part B range entry (R49). -/
structure Range where
  addr : Nat
  lsb : Nat
  width : Nat
  sgn : Bool
  min : Word
  max : Word
  deriving DecidableEq, Repr, Inhabited

/-- A source-class range of the JNL record (R48). -/
structure ClassR where
  first : Nat
  last : Nat
  auth : Bool
  key : Nat
  deriving DecidableEq, Repr, Inhabited

/-- Everything an image sets beyond registers, with the register values it leaves. -/
structure Image where
  source : Nat := 0
  keySlot : Nat := 0
  rollback : Nat := 0
  diag : Bool := false
  advance : Bool := false
  buildId : Nat := 0
  digest : Nat := 0
  /-- Registers that the image writes, with their final values. -/
  regs : List (Nat × Word) := []
  /-- The bits of each of them that a record writes; the others stay as the register has them at the seal. -/
  masks : List (Nat × Word) := []
  /-- Record TYPE, INSTANCE and offset of the entry that last wrote each register (R51, R466), by 2 × address for the host's
  fields, and by 2 × address + 1 for the warden's. -/
  wrote : List (Nat × (Nat × Nat × Nat)) := []
  /-- Offset of the LIMITS record (R51). -/
  limOff : Nat := 0
  topo : List (Nat × Topo) := []
  /-- Bank pairs that have an ADC record, one bit each (R136). -/
  pairs : Nat := 0
  progs : List (Nat × Prog) := []
  ranges : List Range := []
  classes : List ClassR := []
  filters : List (Nat × List (Nat × (Word × Word))) := []
  /-- The entries that write CAN_FCODE and CAN_FMASK: controller, filter, 0 for the code or 1 for the mask, and the word. -/
  filterEntries : List (Nat × Nat × Nat × Word) := []
  deriving DecidableEq, Repr, Inhabited

/-- The image in force, the image between its checks and its seal, and the loader's position. -/
structure ImageState where
  cur : Image := {}
  /-- A checked image that awaits the seal (R57). -/
  staged : Option Image := none
  /-- Steps 1 to 3 have been taken and the Vent die's confirmation is awaited. -/
  sealing : Bool := false
  /-- Copies of the boot flash still to try: 0 primary, 1 secondary (R29, R30). -/
  nextCopy : Nat := 0
  deriving DecidableEq, Repr, Inhabited

/-! ### Warden (chapter 18) -/

/-- A rollback advance under way (R389): first word of its counter, the next bit to try, how many bits are still to
program, and the last word of which a bit was programmed. -/
structure Roll where
  base : Nat
  bit : Nat
  left : Nat
  last : Option Nat := none
  deriving DecidableEq, Repr, Inhabited

/-- A programming service under way (R398 to R401): code, the words still to program as addresses and values, how many
are done, and why it ends at the next word boundary. -/
structure Svc where
  code : Nat
  todo : List (Nat × Word) := []
  roll : Option Roll := none
  words : Nat := 0
  /-- 0 goes on; otherwise the RESULT with which it ends at the word boundary (R399). -/
  stop : Nat := 0
  /-- The warden's own rollback advance (R56). -/
  own : Bool := false
  deriving DecidableEq, Repr, Inhabited

/-- The warden beyond its registers. -/
structure Warden where
  svc : Option Svc := none
  /-- The code of a host service that waits for the warden's own advance, and whether an own advance waits for a host service
  (R400). -/
  waiting : Option Nat := none
  advWaits : Bool := false
  /-- Words that read marginal at boot or failed their verification (R390, R398). -/
  marginal : List Nat := []
  /-- Marginal rollback words as the boot reads gave them (R390). -/
  roll : List (Nat × Word) := []
  /-- A lockstep mismatch has stopped the warden's cores; its reset waits for a programming pulse (R383, R399). -/
  stopped : Bool := false
  /-- The reset that is under way followed a lockstep mismatch (R383). -/
  lserr : Bool := false
  deriving DecidableEq, Repr, Inhabited

/-! ### The device -/

/-- Everything but the queue and the Sinter array. -/
structure Dev where
  regs : List (Nat × Word) := []
  clk : Clock := {}
  sys : SysState := {}
  img : ImageState := {}
  gey : GeyState := {}
  legs : List (Nat × LegUnit) := []
  brakes : List (Nat × BrakeUnit) := []
  vent : Vent := {}
  link : Link := {}
  tap : Tap := {}
  axes : List (Nat × AxisUnit) := []
  banks : List (Nat × BankUnit) := []
  accs : List (Nat × AccUnit) := []
  fbks : List (Nat × FbkUnit) := []
  /-- COR_CH values in force since the last tick (R142). -/
  cor : List (Nat × Word) := []
  /-- AX_COMM and AX_CTHR values in force since the last tick, and the sequencer's LIVE registers (R250, R273). -/
  axLive : List (Nat × Word) := []
  engs : List (Nat × EngUnit) := []
  patrol : Patrol := {}
  jnl : Journal := {}
  con : Conduit := {}
  can : List (Nat × CanCtl) := []
  host : HostPort := {}
  wdn : Warden := {}
  /-- Position in the stream of free values (the model's own field). -/
  free : Nat := 0
  deriving DecidableEq, Repr, Inhabited

/-- Reasons for a fault. -/
inductive Fault where
  /-- A command whose operands lie outside the ranges of `Instr.wf`: no part can meet such a command. Raised by the
  meanings whose operands the types do not already bound. Safe: the model stops where the hardware has no such step. -/
  | illFormed
  deriving DecidableEq, Repr, Inhabited

/-- Reasons for a refusal. -/
inductive Refusal where
  /-- No meaning yet for this command. Raised by `exec` only. Safe. -/
  | notModelled (mnemonic : String)
  deriving DecidableEq, Repr, Inhabited

/-- The state of the block: the device, the 1,024 words of Sinter (data bits; a word that is not listed is blank), and
the commands that wait, first in, first out. -/
structure State where
  dev : Dev
  /-- Programmed Sinter words by address; the second component tells a programmed word of value 0 from a blank one. -/
  otp : List (Nat × Option Word)
  pending : List Instr
  deriving DecidableEq, Repr, Inhabited

/-- A shipped, unprovisioned part: vendor word 0x000 (part 0x0840, revision 1) and lock record 0 programmed, every other
word blank (R386, R387). DESIGN CHOICE, unsafe: log entry 5. -/
def shippedOtp : List (Nat × Option Word) :=
  [(0x000, some 0x0000010840#40), (0x3C0, some 0x4C4F434B00#40), (0x3D5, some 0x4C4F434B00#40),
   (0x3EA, some 0x4C4F434B00#40)]

/-- The block at power-on reset: every register at its Reset column (R11), both dies in reset, no command waiting. -/
def State.reset : State where
  dev := {}
  otp := shippedOtp
  pending := []

end Sys2Proof.Machine
end

