-- ==== Sys2Proof/Machine/Ops.lean ====
section
/-! DEFINITION. The named operations over the state: register fields, events, Caldera words, the replicated units, and
time. -/

namespace Sys2Proof.Machine

/-! ### Registers -/

/-- The stored word of a register (R7); a register that no write has reached reads its Reset column (R11). -/
def Dev.reg (d : Dev) (a : Nat) : Word := tget regReset d.regs a

/-- A whole-register update. -/
def Dev.setReg (d : Dev) (a : Nat) (w : Word) : Dev := { d with regs := tset regReset d.regs a w }

/-- The field of the register `j` places after the named one. -/
def Fld.nth (f : Fld) (j : Nat) : Fld := { f with addr := f.addr + j }

/-- The address of instance `i` of a field's register (R434). -/
def Fld.at_ (f : Fld) (i : Nat) : Nat := f.addr + f.stride * i

/-- A field of instance `i`. -/
def Dev.get (d : Dev) (f : Fld) (i : Nat := 0) : Nat := fget (d.reg (f.at_ i)) f.lo f.width

/-- A one-bit field of instance `i`. -/
def Dev.flag (d : Dev) (f : Fld) (i : Nat := 0) : Bool := d.get f i = 1

/-- A signed field of instance `i`. -/
def Dev.getI (d : Dev) (f : Fld) (i : Nat := 0) : Int := signed f.width (d.get f i)

/-- Write a field of instance `i`; the value is taken modulo the field's width. -/
def Dev.put (d : Dev) (f : Fld) (i : Nat) (v : Nat) : Dev :=
  d.setReg (f.at_ i) (fput (d.reg (f.at_ i)) f.lo f.width v)

/-- Write a one-bit field. -/
def Dev.putB (d : Dev) (f : Fld) (i : Nat) (b : Bool) : Dev := d.put f i (b2n b)

/-- Write a signed field. -/
def Dev.putI (d : Dev) (f : Fld) (i : Nat) (v : Int) : Dev := d.put f i (unsigned f.width v)

/-- Raise a saturating counter field by `k`. -/
def Dev.bump (d : Dev) (f : Fld) (i : Nat) (k : Nat := 1) : Dev := d.put f i (satAdd f.width (d.get f i) k)

/-- Bit `b` of a field of instance `i`. -/
def Dev.bit (d : Dev) (f : Fld) (i b : Nat) : Bool := (d.get f i).testBit b

/-- Write bit `b` of a field of instance `i`. -/
def Dev.putBit (d : Dev) (f : Fld) (i b : Nat) (v : Bool) : Dev := d.put f i (setBit (d.get f i) b v)

/-- Two-bit entry `k` of a packed field, such as an authority state in DIE_AUTH. -/
def Dev.get2 (d : Dev) (f : Fld) (k : Nat) : Nat := (d.get f 0 >>> (2 * k)) % 4

/-- Write two-bit entry `k` of a packed field. -/
def Dev.put2 (d : Dev) (f : Fld) (k v : Nat) : Dev := d.put { f with lo := f.lo + 2 * k, width := 2 } 0 v

/-! ### Events (R374) -/

/-- Raise event EVn: its status bit is set, whatever its enable and route. -/
def Dev.raise (d : Dev) (n : Nat) : Dev := d.putBit F.EVT_STAT (n / 32) (n % 32) true

/-- Raise an event when a condition holds. -/
def Dev.raiseIf (d : Dev) (c : Bool) (n : Nat) : Dev := if c then d.raise n else d

/-- Apply an update when a condition holds. -/
def Dev.when (d : Dev) (c : Bool) (f : Dev → Dev) : Dev := if c then f d else d

/-! ### Free values -/

/-- The position in the stream of free values, advanced. -/
def Dev.tick1 (d : Dev) : Dev := { d with free := d.free + 1 }

/-- The next free value, as a number. -/
def Dev.freeNat (d : Dev) : Nat := (Config.freeWord d.free).toNat

/-! ### Caldera words (R316) -/

/-- What an unlisted Caldera word reads as: 0, written by the initialisation of R318. -/
def calDefault : Nat → Word := fun _ => 0

/-- The memory's canonical form. -/
def Memory.wf (m : List (Nat × Word)) : Bool := twf calDefault m

/-- Read a Caldera word. -/
def Dev.cal (d : Dev) (a : Nat) : Word := tget calDefault d.con.mem a

/-- Write a Caldera word. -/
def Dev.setCal (d : Dev) (a : Nat) (w : Word) : Dev :=
  { d with con := { d.con with mem := tset calDefault d.con.mem a w } }

/-- The bank of a Caldera word (R316). -/
def bankOf (a : Nat) : Nat := a / 32768 % 16

/-- Word `o` of bank `b` as a Caldera address. -/
def calAddr (b o : Nat) : Nat := b * 32768 + o

/-! ### Replicated units -/

/-- A unit of a replicated kind; an unlisted unit is as it is at reset. -/
def uget {α : Type} [Inhabited α] (t : List (Nat × α)) (i : Nat) : α := tget (fun _ => default) t i

/-- A unit replaced. -/
def uset {α : Type} [Inhabited α] [DecidableEq α] (t : List (Nat × α)) (i : Nat) (v : α) : List (Nat × α) :=
  tset (fun _ => default) t i v

/-- Phase leg unit `l`. -/
def Dev.leg (d : Dev) (l : Nat) : LegUnit := uget d.legs l
/-- Phase leg unit `l` updated. -/
def Dev.modLeg (d : Dev) (l : Nat) (f : LegUnit → LegUnit) : Dev := { d with legs := uset d.legs l (f (d.leg l)) }
/-- Brake leg unit `b`. -/
def Dev.brk (d : Dev) (b : Nat) : BrakeUnit := uget d.brakes b
/-- Brake leg unit `b` updated. -/
def Dev.modBrk (d : Dev) (b : Nat) (f : BrakeUnit → BrakeUnit) : Dev := { d with brakes := uset d.brakes b (f (d.brk b)) }
/-- Axis `k` beyond its registers. -/
def Dev.axis (d : Dev) (k : Nat) : AxisUnit := uget d.axes k
/-- Axis `k` updated. -/
def Dev.modAxis (d : Dev) (k : Nat) (f : AxisUnit → AxisUnit) : Dev := { d with axes := uset d.axes k (f (d.axis k)) }
/-- The commutation unit of axis `k`. -/
def Dev.comm (d : Dev) (k : Nat) : CommUnit := (d.axis k).comm
/-- The commutation unit of axis `k` updated. -/
def Dev.modComm (d : Dev) (k : Nat) (f : CommUnit → CommUnit) : Dev :=
  d.modAxis k fun a => { a with comm := f a.comm }
/-- ADC bank `b`. -/
def Dev.bank (d : Dev) (b : Nat) : BankUnit := uget d.banks b
/-- ADC bank `b` updated. -/
def Dev.modBank (d : Dev) (b : Nat) (f : BankUnit → BankUnit) : Dev := { d with banks := uset d.banks b (f (d.bank b)) }
/-- Accumulator `n`. -/
def Dev.acc (d : Dev) (n : Nat) : AccUnit := uget d.accs n
/-- Accumulator `n` updated. -/
def Dev.modAcc (d : Dev) (n : Nat) (f : AccUnit → AccUnit) : Dev := { d with accs := uset d.accs n (f (d.acc n)) }
/-- Feedback unit `u`. -/
def Dev.fbk (d : Dev) (u : Nat) : FbkUnit := uget d.fbks u
/-- Feedback unit `u` updated. -/
def Dev.modFbk (d : Dev) (u : Nat) (f : FbkUnit → FbkUnit) : Dev := { d with fbks := uset d.fbks u (f (d.fbk u)) }
/-- Engine `e`. -/
def Dev.eng (d : Dev) (e : Nat) : EngUnit := uget d.engs e
/-- Engine `e` updated. -/
def Dev.modEng (d : Dev) (e : Nat) (f : EngUnit → EngUnit) : Dev := { d with engs := uset d.engs e (f (d.eng e)) }
/-- The run of engine `e` updated. -/
def Dev.modRun (d : Dev) (e : Nat) (f : EngRun → EngRun) : Dev := d.modEng e fun u => { u with run := f u.run }
/-- CAN controller `c`. -/
def Dev.ctl (d : Dev) (c : Nat) : CanCtl := uget d.can c
/-- CAN controller `c` updated. -/
def Dev.modCtl (d : Dev) (c : Nat) (f : CanCtl → CanCtl) : Dev := { d with can := uset d.can c (f (d.ctl c)) }
/-- An axis of the Vent die. -/
def Vent.axis (v : Vent) (k : Nat) : VAxis := uget v.axes k
/-- An axis of the Vent die updated. -/
def Vent.modAxis (v : Vent) (k : Nat) (f : VAxis → VAxis) : Vent := { v with axes := uset v.axes k (f (v.axis k)) }
/-- A phase leg of the Vent die. -/
def Vent.leg (v : Vent) (l : Nat) : VLeg := uget v.legs l
/-- A phase leg of the Vent die updated. -/
def Vent.modLeg (v : Vent) (l : Nat) (f : VLeg → VLeg) : Vent := { v with legs := uset v.legs l (f (v.leg l)) }
/-- A brake leg of the Vent die. -/
def Vent.brake (v : Vent) (b : Nat) : VBrake := uget v.brakes b
/-- A brake leg of the Vent die updated. -/
def Vent.modBrake (v : Vent) (b : Nat) (f : VBrake → VBrake) : Vent := { v with brakes := uset v.brakes b (f (v.brake b)) }
/-- The Vent die updated. -/
def Dev.modVent (d : Dev) (f : Vent → Vent) : Dev := { d with vent := f d.vent }
/-- The link updated. -/
def Dev.modLink (d : Dev) (f : Link → Link) : Dev := { d with link := f d.link }
/-- The journal updated. -/
def Dev.modJnl (d : Dev) (f : Journal → Journal) : Dev := { d with jnl := f d.jnl }
/-- The host port updated. -/
def Dev.modHost (d : Dev) (f : HostPort → HostPort) : Dev := { d with host := f d.host }
/-- The warden updated. -/
def Dev.modWdn (d : Dev) (f : Warden → Warden) : Dev := { d with wdn := f d.wdn }
/-- The arbiter updated. -/
def Dev.modCon (d : Dev) (f : Conduit → Conduit) : Dev := { d with con := f d.con }
/-- Patrol and promotion updated. -/
def Dev.modPat (d : Dev) (f : Patrol → Patrol) : Dev := { d with patrol := f d.patrol }
/-- The frame scheduler updated. -/
def Dev.modGey (d : Dev) (f : GeyState → GeyState) : Dev := { d with gey := f d.gey }

/-- Fold an update over a list of indices. -/
def Dev.each (d : Dev) (l : List Nat) (f : Nat → Dev → Dev) : Dev := l.foldl (fun x i => f i x) d

/-! ### Topology (R1, R41) -/

/-- The TOPOLOGY entry of axis `k` in the image in force. -/
def Dev.topo (d : Dev) (k : Nat) : Topo := uget d.img.cur.topo k

/-- Axis `k` is enabled. -/
def Dev.enabled (d : Dev) (k : Nat) : Bool := (d.topo k).en

/-- Axis `k` is an enabled single or primary axis (R42). -/
def Dev.primary (d : Dev) (k : Nat) : Bool :=
  (d.topo k).en && ((d.topo k).kind == 0 || (d.topo k).kind == 1 || (d.topo k).kind == 3)

/-- Axis `k` is the primary of a six-phase pair. -/
def Dev.six (d : Dev) (k : Nat) : Bool := (d.topo k).en && (d.topo k).kind == 1

/-- Axis `k` is the primary of a parallel pair. -/
def Dev.par (d : Dev) (k : Nat) : Bool := (d.topo k).en && (d.topo k).kind == 3

/-- Axis `k` is the secondary of a parallel pair. -/
def Dev.parSec (d : Dev) (k : Nat) : Bool := (d.topo k).en && (d.topo k).kind == 4

/-- The ganged partner of axis `k` (R42): the even axis is the primary. -/
def Dev.partner (d : Dev) (k : Nat) : Option Nat :=
  if (d.topo k).en then
    match (d.topo k).kind with
    | 1 => some (k + 1)
    | 3 => some (k + 1)
    | 2 => some (k - 1)
    | 4 => some (k - 1)
    | _ => none
  else none

/-- The axes that run and stop with axis `k`: itself and its ganged partner, lower first. -/
def Dev.gang (d : Dev) (k : Nat) : List Nat :=
  match d.partner k with
  | none => [k]
  | some j => if j < k then [j, k] else [k, j]

/-- The legs of axis `k` (R1). -/
def legsOf (k : Nat) : List Nat := [3 * k, 3 * k + 1, 3 * k + 2]

/-- The axis of a leg (R1). -/
def axisOf (l : Nat) : Nat := l / 3

/-- The program of an axis. -/
def Dev.progOf (d : Dev) (k : Nat) : Prog := uget d.img.cur.progs (d.topo k).prog

/-- The axis that owns a bank pair (R41). -/
def Dev.axisOfPair (d : Dev) (p : Nat) : Option Nat := (List.range 8).find? fun k => (d.topo k).en && (d.topo k).pair == p

/-- The axis that a feedback unit serves. -/
def Dev.axisOfFbk (d : Dev) (u : Nat) : Option Nat :=
  (List.range 8).find? fun k => d.primary k && (d.topo k).fbk == u && (d.topo k).drive == 2

/-- Axis `k` is sensorless: DRIVE 0 or 1 (R231). -/
def Dev.sensorless (d : Dev) (k : Nat) : Bool := d.primary k && decide ((d.topo k).drive < 2)

/-! ### Bank sequences (R125, R126) and engines of axes (R280) -/

/-- The bank whose sequence bank `b` runs: the even bank's in interleaved mode (R129, R131). -/
def Dev.seqBank (d : Dev) (b : Nat) : Nat := if d.get F.ADC_CTL_MODE (b / 2 * 2) = 2 then b / 2 * 2 else b

/-- The number of entries that bank `b` runs (R124). -/
def Dev.seqLen (d : Dev) (b : Nat) : Nat := d.get F.ADC_CTL_LEN (d.seqBank b)

/-- Field of entry `e` of the sequence that bank `b` runs. -/
def Dev.entry (d : Dev) (f : Fld) (b e : Nat) : Nat := d.get (f.nth e) (d.seqBank b)

/-- Engine `e` is fenced. -/
def Dev.fenced (d : Dev) (e : Nat) : Bool := d.bit F.ENG_PROM_FENCED 0 e

/-- Axis `k` is stranded. -/
def Dev.stranded (d : Dev) (k : Nat) : Bool := d.bit F.ENG_PROM_STRAND 0 k

/-- The axis that a reserve holds, 8 for none. -/
def Dev.holds (d : Dev) (e : Nat) : Nat := if e = 8 then d.get F.ENG_PROM_HOLD8 0 else d.get F.ENG_PROM_HOLD9 0

/-- The engine that serves an axis. -/
def Dev.engineOf (d : Dev) (k : Nat) : Option Nat :=
  if d.stranded k then none
  else if d.holds 8 = k then some 8
  else if d.holds 9 = k then some 9
  else if d.primary k && !d.fenced (d.topo k).engine then some (d.topo k).engine
  else none

/-- The axis that an engine serves (R280). -/
def Dev.servedBy (d : Dev) (e : Nat) : Option Nat := (List.range 8).find? fun k => d.engineOf k == some e

/-! ### Authority states of the control die (R417) -/

/-- The encoding of an authority state in DIE_AUTH. -/
def Auth.code : Auth → Nat
  | .safe => 0
  | .armed => 1
  | .run => 2

/-- The authority state of an encoding. -/
def Auth.ofCode : Nat → Auth
  | 1 => .armed
  | 2 => .run
  | _ => .safe

/-- The control die's state of axis `k`. -/
def Dev.cst (d : Dev) (k : Nat) : Auth := Auth.ofCode (d.get2 F.DIE_AUTH_CST k)

/-- The Vent die's state of axis `k` as last reported. -/
def Dev.vst (d : Dev) (k : Nat) : Auth := Auth.ofCode (d.get2 F.DIE_AUTH_VST k)

/-- Write the control die's state. -/
def Dev.setCst (d : Dev) (k : Nat) (a : Auth) : Dev := d.put2 F.DIE_AUTH_CST k a.code

/-- Write the Vent die's reported state. -/
def Dev.setVst (d : Dev) (k : Nat) (a : Auth) : Dev := d.put2 F.DIE_AUTH_VST k a.code

/-! ### LIVE registers of commutation unit and sequencer (R250, R273) -/

/-- A field as it stood at the last tick. -/
def Dev.live (d : Dev) (f : Fld) (k : Nat) : Nat := fget (tget regReset d.axLive (f.at_ k)) f.lo f.width

/-! ### Time (R6, R236, R342) -/

/-- The length of the current frame in core cycles. -/
def Dev.len (d : Dev) : Nat := d.get F.GEY_SSTAT_LEN

/-- The core cycle of the current frame. -/
def Dev.cycle (d : Dev) : Nat := d.clk.now - d.clk.frameStart

/-- The 80 MHz time base (R342). -/
def Dev.timeBase (d : Dev) : Nat := (d.clk.now - d.clk.base) / 5 % 2 ^ 40

/-! ### The test access port (R456) -/

/-- The instruction of an opcode: one that R456 does not list selects the bypass register. -/
def TapInstr.ofOpcode (c : BitVec 4) : TapInstr := match c.toNat with
  | 0 => .extest
  | 1 => .sample
  | 2 => .idcode
  | 3 => .clamp
  | 4 => .highz
  | _ => .bypass

/-- The opcode of an instruction in the table of R456. -/
def TapInstr.opcode : TapInstr → BitVec 4
  | .extest => 0x0
  | .sample => 0x1
  | .idcode => 0x2
  | .clamp => 0x3
  | .highz => 0x4
  | .bypass => 0xF

/-- The current instruction: what the instruction register holds. -/
def Tap.instr (t : Tap) : TapInstr := TapInstr.ofOpcode t.ir

/-! ### Lifting -/

/-- The outcome of an update of the device: always a next state, with the Sinter array and the queue unchanged. -/
def State.lift (s : State) (f : Dev → Dev) : Host.Outcome State Fault Refusal := .next { s with dev := f s.dev }

/-- The control-die logic runs. -/
def Dev.awake (d : Dev) : Bool := !d.sys.inReset

/-- The warden's cores run: no lockstep mismatch has stopped them (R383). -/
def Dev.wardenUp (d : Dev) : Bool := d.awake && !d.wdn.stopped

/-- The host port takes frames: what the host commands has its effect (R373). -/
def Dev.hostUp (d : Dev) : Bool := d.awake && d.sys.portUp

/-- A write by the host: one that is refused is reported through the host port's status (R10, R369). -/
def Dev.hostWrite (d : Dev) (addr : Nat) (r : Option Dev) : Dev :=
  match r with
  | some d' => d'
  | none => (d.put F.HST_STAT_LSTAT 0 1).put F.HST_STAT_LADDR 0 addr

end Sys2Proof.Machine
end

