-- ==== Sys2Proof/Machine/Conduit.lean ====
section
/-! DEFINITION. The Conduit arbiter and Caldera (chapter 15): words and their error correction, banks that a requester may
use, arbitration, reservations. -/

namespace Sys2Proof.Machine

/-! ### Words (R316, R319) -/

/-- A corrected read: SCNT, the address, EV105 on the first one, and a write-back in the bank's next idle cycle. -/
def Dev.eccCorrected (d : Dev) (a : Nat) : Dev :=
  let d := d.raiseIf (d.get F.CON_ECC_SCNT 0 = 0) 105
  let d := (d.bump F.CON_ECC_SCNT 0).put F.CON_ECC_ADDR 0 a
  d.modCon fun c => { c with wb := if c.wb.contains a then c.wb else c.wb ++ [a] }

/-- An uncorrectable read: UCNT, the address, EV105; the word is left as it is. -/
def Dev.eccUncorrectable (d : Dev) (a : Nat) : Dev :=
  let d := ((d.bump F.CON_ECC_UCNT 0).put F.CON_ECC_ADDR 0 a).raise 105
  d.modCon fun c => { c with bad := if c.bad.contains a then c.bad else c.bad ++ [a] }

/-- The answer of a read's error correction with the error that stands in the word: one that a read has found and nothing has
written since stays (R319; log entry 87). -/
def Dev.eccOf (d : Dev) (a : Nat) (e : Ecc) : Ecc :=
  if d.con.bad.contains a then .uncorrectable
  else if e = .ok ∧ d.con.wb.contains a then .corrected else e

/-- A read of a Caldera word with the answer of its error correction; `none` is an error tag. -/
def Dev.conRead (d : Dev) (a : Nat) (e : Ecc) : Dev × Option Word :=
  match d.eccOf a e with
  | .ok => (d, some (d.cal a))
  | .corrected => (d.eccCorrected a, some (d.cal a))
  | .uncorrectable => (d.eccUncorrectable a, none)

/-- The errors that stand in the `n` words from `a` on are met by a read of them. -/
def Dev.conMeets (d : Dev) (a n : Nat) : Dev :=
  ((List.range n).filter fun i => d.con.bad.contains (a + i) || d.con.wb.contains (a + i)).foldl
    (fun d i => (d.conRead (a + i) .ok).1) d

/-- What a read of a word gives with the error that stands in it; an error tag is a word 0. -/
def Dev.conSees (d : Dev) (a : Nat) : Word := if d.con.bad.contains a then 0 else d.cal a

/-- A write of an area of the memory by the arbiter or the warden: standing errors go with the words. -/
def Dev.conFill (d : Dev) (inside : Nat → Bool) (words : List (Nat × Word)) : Dev :=
  d.modCon fun c => { c with
    mem := words ++ c.mem.filter fun p => !inside p.1
    wb := c.wb.filter fun a => !inside a
    bad := c.bad.filter fun a => !inside a }

/-- A write of a Caldera word; a write-back that waits for the word is dropped (R336). -/
def Dev.conWrite (d : Dev) (a : Nat) (w : Word) : Dev :=
  (d.setCal a w).modCon fun c => { c with wb := c.wb.filter (· ≠ a), bad := c.bad.filter (· ≠ a) }

/-- Writes in their order. -/
def Dev.conWrites (d : Dev) (l : List (Nat × Word)) : Dev := l.foldl (fun d p => d.conWrite p.1 p.2) d

/-- ECC_WRITE_BACK: the oldest corrected word of a bank is written back (R319). -/
def Dev.eccWriteBack (d : Dev) (b : Nat) : Dev :=
  match d.con.wb.find? fun a => bankOf a == b with
  | none => d
  | some a => d.modCon fun c => { c with wb := c.wb.filter (· ≠ a) }

/-! ### Permissions (R320, R321) -/

/-- An engine's far accesses to a bank, checked against the map of the primary that TOPOLOGY binds to its axis. -/
def Dev.engineMay (d : Dev) (axis bank : Nat) : Bool :=
  d.sys.sealed && decide (bank < 14) && (d.get F.CON_MAP_BANKS (d.topo axis).engine).testBit bank

/-- The host port may write a bank. -/
def Dev.hostMayWrite (d : Dev) (bank : Nat) : Bool :=
  if d.sys.sealed then decide (bank < 14)
  else decide (bank < 7) && (d.get F.SYS_IMGSTAT_STATE 0 == 4 || d.get F.SYS_IMGSTAT_STATE 0 == 2)

/-- A CAN DMA channel may use a bank. -/
def Dev.dmaMay (d : Dev) (c bank : Nat) : Bool := d.sys.sealed && (d.get F.CON_MAP_BANKS (13 + c)).testBit bank

/-- A refused access of the host or of a CAN DMA channel (R320). -/
def Dev.conDeny (d : Dev) : Dev := (d.bump F.CON_CNT_DENY 0).raise 107

/-! ### Requests (R323, R326, R327, R329) -/

/-- The level of a requester in the arbitration at the end of cycle `t`: a write of CON_PRIO counts from the next cycle on
(R326). -/
def Dev.conLevel (d : Dev) (t q : Nat) : Nat :=
  fget (match d.con.prio with
    | some (n, old) => if t ≤ n then old else d.reg (F.CON_PRIO.at_ 0)
    | none => d.reg (F.CON_PRIO.at_ 0)) (2 * q) 2

/-- A write of CON_PRIO: the levels before the first one of this cycle are kept. -/
def Dev.notePrio (d : Dev) (old : Word) : Dev :=
  d.modCon fun c => { c with prio := match c.prio with
    | some (n, o) => if n = d.clk.now then some (n, o) else some (d.clk.now, old)
    | none => some (d.clk.now, old) }

/-- The age of a request in cycle `t`. -/
def Req.age (r : Req) (t : Nat) : Nat := min (t - r.since) 255

/-- Rank of R326 in cycle `t`: a higher level, then a higher age, then a lower requester number. -/
def Dev.outranks (d : Dev) (t : Nat) (x y : Req) : Bool :=
  let lx := d.conLevel t x.req
  let ly := d.conLevel t y.req
  decide (ly < lx ∨ (lx = ly ∧ (y.age t < x.age t ∨ (x.age t = y.age t ∧ x.req < y.req))))

/-- The number of words of a request's grant (R323). -/
def Req.length (r : Req) : Nat := match r.kind with
  | .bulk n => n
  | _ => 1

/-- The first of each requester (R327). -/
def firsts : List Req → List Nat → List Req
  | [], _ => []
  | r :: rs, seen => if seen.contains r.req then firsts rs seen else r :: firsts rs (r.req :: seen)

/-- The requests of a bank that have not ended: those granted, the eight of its queue, and after them those that a full queue
has not accepted and that are made again in each cycle (R327). -/
def Dev.queue (d : Dev) (b : Nat) : List Req := uget d.con.queues b

/-- The requests of a bank that no grant has met yet. -/
def Dev.waiting (d : Dev) (b : Nat) : List Req := (d.queue b).filter fun r => r.at_.isNone

/-- The reservations that wait for a bank, as requests (R329). -/
def Dev.resvReqs (d : Dev) (b : Nat) : List Req :=
  (d.con.resv.filter fun r => r.banks.head? == some b).map fun r => { req := r.req, since := r.since, addr := 0, kind := .resv }

/-- The next words of the checkpoint bursts under way, as requests to M15 (R196, R320). -/
def Dev.wordReqs (d : Dev) (b : Nat) : List Req :=
  if b = 15 then (List.range 10).filterMap fun e => match (d.eng e).burst with
    | none => none
    | some x => some { req := e, since := x.since, addr := x.addr + x.next, kind := .word }
  else []

/-- The requests that an arbitration of the bank can grant. -/
def Dev.candidates (d : Dev) (b : Nat) : List Req := firsts (d.waiting b) [] ++ d.resvReqs b ++ d.wordReqs b

/-- A reservation holds the bank (R329). -/
def Dev.conHeld (d : Dev) (b : Nat) : Bool := d.con.resv.any fun r => r.held.contains b

/-- The first and the last data cycle of the latest grant of a bank. -/
def Dev.conFrom (d : Dev) (b : Nat) : Nat := (uget d.con.busy b).1
def Dev.conBusy (d : Dev) (b : Nat) : Nat := (uget d.con.busy b).2

/-- The data cycles of a grant. -/
def Dev.setBusy (d : Dev) (b first last : Nat) : Dev := d.modCon fun c => { c with busy := uset c.busy b (first, last) }

/-! ### Arbitration (R324 to R328) -/

/-- The core cycle at whose end the bank is next arbitrated: that of its oldest request, or the last data cycle of the grant
that runs (R324). -/
def Dev.nextArb (d : Dev) (b : Nat) : Option Nat :=
  if d.conHeld b then none
  else match (d.candidates b).map Req.since with
    | [] => none
    | t :: ts => some (max (d.conBusy b) (ts.foldl min t))

/-- The winner of that arbitration. -/
def Dev.conPick (d : Dev) (b : Nat) : Option Req := match d.nextArb b with
  | none => none
  | some t => ((d.candidates b).filter fun r => decide (r.since ≤ t)).foldl (fun best r => match best with
    | none => some r
    | some x => if d.outranks t r x then some r else some x) none

/-- The bank is parked on a requester, or on none. -/
def Dev.park (d : Dev) (b : Nat) (q : Option Nat) : Dev := d.modCon fun c => { c with parked := uset c.parked b q }

/-- The requests of a bank updated. -/
def Dev.modQueue (d : Dev) (b : Nat) (f : List Req → List Req) : Dev :=
  d.modCon fun c => { c with queues := uset c.queues b (f (uget c.queues b)) }

/-- A request of `q` in cycle `t` ends a parking on another requester, and a burst of the owner that was requested in this same
cycle is arbitrated with it (R325, R336). -/
def Dev.unpark (d : Dev) (b q t : Nat) : Dev :=
  if uget d.con.parked b = some q then d
  else
    let d := d.park b none
    if (d.queue b).any fun r => r.at_ == some t && r.since == t then
      (d.modQueue b fun l => l.map fun r => if r.at_ = some t ∧ r.since = t then { r with at_ := none } else r).setBusy b t t
    else d

/-- QFULL counts the cycles in which requests met a full queue: those of `l` that stand behind the first eight in it and leave
it, or move up as others leave, at cycle `t` (R327). -/
def turnedAway (l : List Req) (leaves : Req → Bool) (t : Nat) : Nat :=
  (((l.drop 8).filter fun r => leaves r || ((l.filter fun x => !leaves x).take 8).contains r).map fun r => t - r.since).sum

/-- The count of full queues rises. -/
def Dev.addQfull (d : Dev) (n : Nat) : Dev := if n = 0 then d else d.bump F.CON_CNT_QFULL 0 n

/-- Requests leave a bank. -/
def Dev.leaveQueue (d : Dev) (b : Nat) (p : Req → Bool) : Dev :=
  let n := turnedAway (d.waiting b) p d.clk.now
  (d.modQueue b fun l => l.filter fun r => !p r).addQfull n

/-- The half of a checkpoint burst loses VALID as the transfer of its first word begins (R196; log entry 48). -/
def Dev.clearHalf (d : Dev) (x : Burst) : Dev := d.conWrite (x.addr + 0x40) (fput (d.cal (x.addr + 0x40)) 39 1 0)

/-- A word of a checkpoint burst is written in cycle `t`; after the header, LAST names the half (R196). -/
def Dev.burstWord (d : Dev) (e t : Nat) : Dev :=
  match (d.eng e).burst with
  | none => d
  | some x =>
    let d := if x.next = 0 then d.clearHalf x else d
    if x.next < x.words.length then
      (d.conWrite (x.addr + x.next) (x.words.getD x.next 0)).modEng e fun u => { u with
        burst := some { x with next := x.next + 1, since := t } }
    else
      let d := (d.conWrite (x.addr + 0x40) x.header).modEng e fun u => { u with burst := none }
      ((d.put F.ENG_CKPT_LAST e x.half).putB F.ENG_CKPT_VALID e true).put F.ENG_CKPT_FRAME e x.frame

/-- The bank grants a request at the end of cycle `t`; its data moves from the next cycle on (R323, R324). A reservation
acquires the bank and asks for its next one (R329). -/
def Dev.grant (d : Dev) (b t : Nat) (r : Req) : Dev :=
  match r.kind with
  | .resv =>
    let rest := ((d.con.resv.find? fun y => y.req == r.req).map fun y => y.banks.drop 1).getD []
    let d := (d.unpark b r.req t).modCon fun c => { c with
      resv := c.resv.map fun y => if y.req = r.req then
        { y with held := y.held ++ [b], banks := rest, since := t + 1, from_ := y.from_.or (some t) } else y }
    match rest with
    | [] => d
    | n :: _ => d.unpark n r.req (t + 1)
  | .word => ((d.unpark b r.req t).burstWord r.req (t + 1)).setBusy b (t + 1) (t + 1)
  | _ =>
    let n := turnedAway (d.waiting b) (fun x => x == r) t
    ((d.modQueue b fun l => l.map fun x => if x = r then { x with at_ := some (t + 1) } else x).setBusy b (t + 1)
      (t + r.length)).addQfull n

/-- The bank that is arbitrated first, before cycle `t`, and that cycle; the lowest of several. -/
def Dev.arbDue (d : Dev) (t : Nat) : Option (Nat × Nat) :=
  (List.range 16).foldl (fun best b => match d.nextArb b with
    | none => best
    | some a => if t ≤ a then best else match best with
      | none => some (b, a)
      | some x => if a < x.2 then some (b, a) else best) none

/-- `n` arbitrations before cycle `t`. -/
def Dev.arbSteps (d : Dev) (t : Nat) : Nat → Dev
  | 0 => d
  | n + 1 => match d.arbDue t with
    | none => d
    | some x => match d.conPick x.1 with
      | none => d
      | some r => (d.grant x.1 x.2 r).arbSteps t n

/-- The number of grants that the requests of now still ask for. -/
def Dev.waits (d : Dev) : Nat :=
  (d.con.queues.map fun p => (p.2.filter fun r => r.at_.isNone).length).sum + (d.con.resv.map fun r => r.banks.length).sum +
    (d.engs.map fun p => match p.2.burst with
      | none => 0
      | some x => x.words.length + 1 - x.next).sum

/-- The arbitrations at the ends of the cycles before `t` are taken, in the order of their cycles. -/
def Dev.arbTo (d : Dev) (t : Nat) : Dev := d.arbSteps t d.waits

/-- The bank's queue is full for a request in cycle `t`; a grant at the end of that cycle frees its place first (R327,
R336). -/
def Dev.conFull (d : Dev) (b t : Nat) : Bool :=
  let freed := match d.nextArb b, d.conPick b with
    | some a, some r => decide (a ≤ t) && r.kind != .resv && r.kind != .word
    | _, _ => false
  decide (8 + b2n freed ≤ (d.waiting b).length)

/-- A new request wins the bank at the end of cycle `t`: no grant holds the bank in the next cycle, no reservation holds it, and
the request outranks what waits (R324, R326, R329). -/
def Dev.conWins (d : Dev) (b t : Nat) (r : Req) : Bool :=
  !d.conHeld b && decide (d.conBusy b ≤ t ∨ t + 1 < d.conFrom b) && !((d.waiting b).any fun x => x.req == r.req) &&
  (d.candidates b).all fun x => decide (t < x.since) || d.outranks t r x

/-- A burst of Q12 to Q16 is requested. The parked owner's data moves in the cycle of the request (R325). -/
def Dev.bulkRequest (d : Dev) (q a n : Nat) : Dev :=
  let b := bankOf a
  let t := d.clk.now
  let direct := decide (uget d.con.parked b = some q ∧ d.candidates b = [] ∧ d.conBusy b < t)
  let d := (d.unpark b q t).modQueue b fun l =>
    l ++ [{ req := q, since := t, addr := a, kind := .bulk n, at_ := if direct then some t else none }]
  if direct then d.setBusy b t (t + (n - 1)) else d

/-- The request of a requester in a bank. -/
def Dev.requestOf (d : Dev) (b q : Nat) : Option Req := (d.queue b).find? fun r => r.req == q

/-- The oldest grant of a bank, among those that `p` admits, whose request has not ended. -/
def Dev.grantOf (d : Dev) (b : Nat) (p : Req → Bool) : Option Req :=
  ((d.queue b).filter fun r => r.at_.isSome && p r).foldl (fun best r => match best with
    | none => some r
    | some x => if r.at_.getD 0 < x.at_.getD 0 then some r else some x) none

/-- Requests of a requester are withdrawn; a store that has been granted completes (R194, R334). -/
def Dev.withdraw (d : Dev) (q : Nat) : Dev :=
  d.each (List.range 16) fun b d =>
    if (d.queue b).any fun x => x.req == q then
      let d := (d.queue b).foldl (fun d r => match r.kind, r.at_ with
        | .store w, some _ => if r.req = q then d.conWrite r.addr w else d
        | _, _ => d) d
      d.leaveQueue b fun x => x.req == q
    else d

/-! ### Reservations (R329 to R331, R333) -/

/-- Why a reservation request is refused, 0 for none. -/
def Dev.resvRefusal (d : Dev) (q : Nat) (banks : List Nat) (writes : Nat) : Nat :=
  if d.con.resv.any fun r => r.req == q then 3
  else if banks.isEmpty || decide (4 < banks.length) || decide (64 < writes) then 2
  else if !(banks.zip (banks.drop 1)).all fun p => decide (p.1 < p.2) then 1
  else 0

/-- The record of a refusal (R330). -/
def Dev.noteRefusal (d : Dev) (q code : Nat) : Dev :=
  (((d.put F.CON_RSTAT_REQ 0 q).put F.CON_RSTAT_CODE 0 code).bump F.CON_RSTAT_COUNT 0).raise 106

/-- A reservation is requested with the writes it stages; a refused one acquires nothing and writes nothing (R330). -/
def Dev.reserve (d : Dev) (q : Nat) (banks : List Nat) (staged : List (Nat × Word)) : Dev :=
  let code := d.resvRefusal q banks staged.length
  if code = 0 then
    (d.modCon fun c => { c with resv := c.resv ++ [{ req := q, banks := banks, staged := staged, since := d.clk.now }] }).unpark
      (banks.headD 0) q d.clk.now
  else d.noteRefusal q code

/-- The reservation of a requester. -/
def Dev.resvOf (d : Dev) (q : Nat) : Option Resv := d.con.resv.find? fun r => r.req == q

/-- What a requester reads at a word: inside its reservation, its own staged write (R329). -/
def Dev.calFor (d : Dev) (q a : Nat) : Word := match d.resvOf q with
  | none => d.cal a
  | some r => ((r.staged.reverse.find? fun p => p.1 == a).map Prod.snd).getD (d.cal a)

/-- The reservation of a requester is dropped; its banks are arbitrated again at the end of this cycle. -/
def Dev.dropResv (d : Dev) (q : Nat) : Dev :=
  let held := ((d.resvOf q).map Resv.held).getD []
  (d.modCon fun c => { c with resv := c.resv.filter fun r => r.req != q }).each held fun b d => d.setBusy b d.clk.now d.clk.now

/-- Writes in their order over those before, one for each word. -/
def mergeWords (old new : List (Nat × Word)) : List (Nat × Word) :=
  new.foldl (fun l p => (l.filter fun x => x.1 != p.1) ++ [p]) old

/-- Writes are staged in a requester's reservation; a 65th is refused and ends it without a write (R329, R330). -/
def Dev.stage (d : Dev) (q : Nat) (ws : List (Nat × Word)) : Dev :=
  match d.resvOf q with
  | none => d
  | some r =>
    let all := mergeWords r.staged ws
    if 64 < all.length then (d.dropResv q).noteRefusal q 2
    else d.modCon fun c => { c with resv := c.resv.map fun x => if x.req = q then { x with staged := all } else x }

/-- The record of a cut-off (R331). -/
def Dev.noteCutOff (d : Dev) (q : Nat) : Dev :=
  ((d.putBit F.CON_CUTOFF_REQ 0 q true).put F.CON_CUTOFF_LAST 0 q |>.bump F.CON_CUTOFF_COUNT 0).raise 104

/-! ### Initialisation (R318) -/

/-- CALDERA_INIT_DONE: window accesses are served from here. -/
def Dev.initDone (d : Dev) : Dev := { d with sys := { d.sys with calInit := false } }

/-! ### Meanings -/

/-- CALDERA_INIT_DONE (R318). -/
def execCalderaInitDone (s : State) : Host.Outcome State Fault Refusal := s.lift fun d => if d.awake then d.initDone else d
/-- ECC_WRITE_BACK (R319). -/
def execEccWriteBack (bank : Fin 16) (s : State) : Host.Outcome State Fault Refusal := s.lift fun d => d.eccWriteBack bank

end Sys2Proof.Machine
end

