-- ==== Sys2Proof/Machine/Vent.lean ====
section
/-! DEFINITION. The Vent die: gates, brake legs, short-circuit detection, stop actions and their precedence (chapters 4,
5 and 19). -/

namespace Sys2Proof.Machine

/-- The order of R25's rows: a cause of higher rank replaces the action of a lower one. -/
def Cause.rank : Cause → Nat
  | .idle => 0
  | .other => 1
  | .link => 2
  | .bstuv => 3
  | .tsd => 4
  | .vds => 5

/-- ACTION of VNT_AFLT. -/
def StopAct.code : StopAct → Nat
  | .none => 0
  | .coast => 1
  | .shortLow => 2
  | .shortHigh => 3

/-- The action of a policy code of LEG_CFG, with RAMP replaced by the fallback (R23, R24). -/
def StopAct.ofPolicy (policy fallback : Nat) : StopAct :=
  match policy with
  | 0 => .coast
  | 1 => .shortLow
  | 2 => .shortHigh
  | _ => match fallback with
    | 0 => .coast
    | 1 => .shortLow
    | _ => .shortHigh

/-- Dead time of a leg in core cycles: 20 ns × (DT code + 1) (R81); the 20 ns floor without a configuration (R85). -/
def Vent.dt (v : Vent) (l : Nat) : Nat :=
  if v.cfgOk then 8 * (fget (uget v.cfg.legs l).cfg 0 4 + 1) else 8

/-- The axis whose stop policy is that of axis `k`: the primary of a ganged pair (R42). -/
def Vent.lead (v : Vent) (k : Nat) : Nat := if v.cfg.gang.testBit k then 2 * (k / 2) else k

/-- The width W of a refresh pulse in core cycles (R90), from the configuration that the die holds. -/
def Vent.refWidth (v : Vent) (l : Nat) : Nat :=
  let c := (uget v.cfg.legs l).cfg
  max (40 * (fget c 12 5 + 1)) (fget c 17 12)

/-- The interval of BSTMAX carriers in core cycles, by the period of the last valid heartbeat (R92). -/
def Vent.refInterval (v : Vent) (l : Nat) : Nat :=
  let c := (uget v.cfg.legs l).cfg
  fget c 4 8 * (if fget c 30 1 = 1 then v.hbPeriod / 2 else v.hbPeriod)

/-- The core cycle at which the next refresh sequence of a standing SHORT_HIGH starts: legs V and W one third and two thirds
of the interval after leg U (R92). DESIGN CHOICE (log entry 75): the Vent die's oscillator at its nominal rate. -/
def Vent.refreshAt (v : Vent) (l : Nat) : Nat :=
  let i := v.refInterval l
  (v.axis (axisOf l)).actAt + ((v.leg l).refs + 1) * i + l % 3 * i / 3

/-- The stop action stored for axis `k`, with RAMP replaced by its fallback. -/
def Vent.stored (v : Vent) (k : Nat) : StopAct :=
  let c := (uget v.cfg.legs (3 * v.lead k)).cfg
  StopAct.ofPolicy (fget c 31 2) (fget c 33 2)

/-- The action of BSTUV: COAST in place of SHORT_HIGH (R25). -/
def Vent.bstuvAct (v : Vent) (k : Nat) : StopAct :=
  if v.stored k = .shortHigh then .coast else v.stored k

/-! ### Gates (R99) -/

/-- A turn-off; a gate that is off stays as it was. -/
def VGate.off (g : VGate) (now : Nat) (soft : Bool) : VGate :=
  if g.on then { g with on := false, soft := soft, offAt := now, cmdOff := some now } else g

/-- A gate is commanded off, on or not (R85). -/
def VGate.command (g : VGate) (now : Nat) : VGate := { g.off now false with cmdOff := some now }

/-- A turn-on; the comparator watches from here (R106). -/
def VGate.turnOn (g : VGate) : VGate := { g with on := true, watch := true }

/-- The comparator sees conditions: its gate is on, or the 40 ns filter of a turn-off still runs (R106). -/
def VGate.sees (g : VGate) (now : Nat) : Bool := g.watch && (g.on || decide (now ≤ g.offAt + 16))

/-- One gate of a leg. -/
def VLeg.gate (l : VLeg) (high : Bool) : VGate := if high then l.h else l.l

/-- One gate of a leg updated. -/
def VLeg.modGate (l : VLeg) (high : Bool) (f : VGate → VGate) : VLeg :=
  if high then { l with h := f l.h } else { l with l := f l.l }

/-- The first core cycle at which gate `high` may turn on: the dead time after the other gate was commanded off (R85). -/
def VLeg.clearAt (l : VLeg) (dt : Nat) (high : Bool) : Nat := match (l.gate (!high)).cmdOff with
  | none => 0
  | some t => t + dt

/-- Both gates turn off. -/
def VLeg.allOff (l : VLeg) (now : Nat) (soft : Bool) : VLeg :=
  { l with h := l.h.off now soft, l := l.l.off now soft, pend := none, ref := .off, ilock := false }

/-- A turn-on that comes within the dead time of the other gate's turn-off is held back and counts (R85). -/
def VLeg.holdBack (l : VLeg) (dt : Nat) (high : Bool) : VLeg :=
  { l with pend := some high, pendAt := l.clearAt dt high, dtfix := satAdd 16 l.dtfix 1 }

/-- A turn-on: held back within the dead time (R85). A high gate is compared with 8.0 V first; below, its turn-on is not
made and counts (R104). The other gate of the leg is never on at that time (R86). -/
def VLeg.turnOn (l : VLeg) (now dt : Nat) (high : Bool) (bstMv : Nat) : VLeg :=
  if l.ilock || (l.gate (!high)).on || (high && l.inh) then l
  else if now < l.clearAt dt high then l.holdBack dt high
  else if high && decide (bstMv < 8000) then { l with bstinh := satAdd 15 l.bstinh 1, inh := true }
  else l.modGate high VGate.turnOn

/-! ### Stop actions (R113, R114) -/

/-- The turn-offs of a stop action at time 0, and the turn-ons that follow after the dead time. -/
def VLeg.applyAct (l : VLeg) (now dt : Nat) (act : StopAct) (soft : Bool) : VLeg :=
  match act with
  | .none => l.allOff now soft
  | .coast => l.allOff now soft
  | .shortLow =>
    { l with h := l.h.off now soft, pend := if l.l.on then none else some false, pendAt := now + dt, ref := .off, ilock := false }
  | .shortHigh =>
    { l with l := l.l.off now soft, pend := if l.h.on then none else some true, pendAt := now + dt, ref := .off
             refs := 0, ilock := false }

/-- The six gates of axis `k` take a stop action. -/
def Vent.applyAct (v : Vent) (now k : Nat) (act : StopAct) (soft : Bool) : Vent :=
  (legsOf k).foldl (fun v l => v.modLeg l fun g => g.applyAct now (v.dt l) act soft) v

/-- May a cause act on axis `k`: the axis is not SAFE, or the cause outranks the one whose action stands (R25, R114)? -/
def Vent.stops (v : Vent) (k : Nat) (cause : Cause) : Bool :=
  let a := v.axis k
  a.st != .safe || (a.act != .none && decide (a.cause.rank < cause.rank))

/-- The Vent die stops axis `k`: it enters SAFE and the action stands (R113, R114, R422). -/
def Vent.stop (v : Vent) (now k : Nat) (cause : Cause) (act : StopAct) (soft : Bool) : Vent :=
  if v.stops k cause then
    (v.modAxis k fun a => { a with
      st := .safe, act := act, cause := cause, actAt := now, chal := none, noRun := 0
      stops := if act = .none then a.stops else satAdd 16 a.stops 1 }).applyAct now k act soft
  else v

/-- The ganged partner of axis `k` in the configuration sent to the Vent die (R42, R109). -/
def Vent.partner (v : Vent) (k : Nat) : Option Nat :=
  if v.cfg.gang.testBit k then some (if k % 2 = 0 then k + 1 else k - 1) else none

/-- A power-stage fault stops the axis and its ganged partner, each with the reaction of R25; the partner shows GANG
(R109). -/
def Vent.faultStop (v : Vent) (now k : Nat) (cause : Cause) (act : Vent → Nat → StopAct) : Vent :=
  let v' := v.stop now k cause (act v k) true
  match v.partner k with
  | none => v'
  | some j =>
    if v'.stops j cause then (v'.stop now j cause (act v j) true).modAxis j fun a => { a with gang := true } else v'

/-- COAST whatever is stored. -/
def Vent.coastAct (_ : Vent) (_ : Nat) : StopAct := .coast

/-- What R16 lays down for heartbeat loss: every axis that is not SAFE takes its stored action and records LINK; open
challenges close (R432). -/
def Vent.linkLoss (v : Vent) (now : Nat) : Vent :=
  let v := (List.range 8).foldl (fun v k =>
    if (v.axis k).st = .safe then v.modAxis k fun a => { a with chal := none }
    else (v.stop now k .link (v.stored k) false).modAxis k fun a => { a with link := true }) v
  { v with hbGood := 0 }

/-! ### Detections (R106 to R108) -/

/-- VNT_FIRST's record of a detection. -/
def VFirst.add (f : VFirst) (leg : Nat) (high : Bool) (stamp : Nat) : VFirst :=
  if !f.valid1 then { f with valid1 := true, leg1 := leg, side1 := high, stamp1 := stamp }
  else if f.valid2 then f
  else if stamp = f.stamp1 then
    if leg < f.leg1 then { f with valid2 := true, leg1 := leg, side1 := high, leg2 := f.leg1, side2 := f.side1, sim := true, delta := 0 }
    else { f with valid2 := true, leg2 := leg, side2 := high, sim := true, delta := 0 }
  else { f with valid2 := true, leg2 := leg, side2 := high, delta := min (stamp - f.stamp1) 65535 }

/-- A short-circuit detection on a phase leg (R107). -/
def Vent.vds (v : Vent) (now l : Nat) (high : Bool) (stamp : Nat) : Vent :=
  let v := { v with first := v.first.add l high stamp }
  let v := v.modLeg l fun g => g.modGate high fun x => { x.off now true with vds := true, watch := false }
  v.faultStop now (axisOf l) .vds Vent.coastAct

/-- Bootstrap undervoltage (R105). -/
def Vent.bstuv (v : Vent) (now l : Nat) : Vent :=
  let v := v.modLeg l fun g => { g with h := g.h.off now true, inh := true, bstuv := true, pend := none }
  v.faultStop now (axisOf l) .bstuv Vent.bstuvAct

/-- A VDS detection of the axis's own legs has stopped it and is still latched (R107). -/
def Vent.vdsStopped (v : Vent) (k : Nat) : Bool :=
  (v.axis k).cause == .vds && (legsOf k).any fun l => (v.leg l).h.vds || (v.leg l).l.vds

/-- A trip line that has passed its filter (R110). In SAFE it latches nothing, but for an axis that a VDS detection of its
own has stopped: there both latch, and COAST stands (R122; log entry 72). -/
def Vent.trip (v : Vent) (now k : Nat) : Vent :=
  if (v.axis k).st = .safe then
    if v.vdsStopped k then v.modAxis k fun a => { a with trip := true } else v
  else (v.modAxis k fun a => { a with trip := true }).faultStop now k .link Vent.stored

/-- Interlock escalation of a leg (R111). -/
def Vent.xlockEscalate (v : Vent) (now l : Nat) : Vent :=
  (v.modLeg l fun g => { g with xlockf := true }).faultStop now (axisOf l) .link Vent.stored

/-- The frame count of R111 for one leg at a valid heartbeat. DEDUCED (log entry 73, unsafe): a frame without a valid
heartbeat is not counted; its interlocks count towards the next. -/
def Vent.xlockFrame (v : Vent) (now l : Nat) : Vent :=
  let g := v.leg l
  let run := if g.xlock ≠ g.xlockHb then g.xlockRun + 1 else 0
  let v := if g.xlock ≠ g.xlockHb ∨ g.xlockRun ≠ 0 then
      v.modLeg l fun g => { g with xlockHb := g.xlock, xlockRun := if 4 ≤ run then 0 else run }
    else v
  if 4 ≤ run then v.xlockEscalate now l else v

/-! ### Brake legs (R93 to R96, R112) -/

/-- Minimum off time in core cycles (R96): DT_f of the record, or the default 320 ns (R94). -/
def Vent.brakeDt (v : Vent) (b : Nat) : Nat :=
  if v.cfgOk then 8 * (fget ((uget v.cfg.brakes b).getD {}).cfg 0 4 + 1) else 128

/-- The comparator of a brake leg acts (R26, R93, R94). -/
def Vent.brakeLive (v : Vent) (b : Nat) : Bool :=
  !v.inReset && (!v.cfgOk || (uget v.cfg.brakes b).isSome)

/-- The brake command line is passed while at least one bound axis is in RUN (R95). -/
def Vent.brakePassed (v : Vent) (b : Nat) : Bool :=
  v.cfgOk && (v.brake b).cmd &&
  (bitsOf 8 (fget ((uget v.cfg.brakes b).getD {}).cfg 18 8)).any fun k => (v.axis k).st == .run

/-- Comparator or passed command calls for the gate; in scan mode comparator or cell (R459). -/
def Vent.brakeWant (v : Vent) (b : Nat) : Bool := match v.scan with
  | none => v.brakeLive b && ((v.brake b).cmp || v.brakePassed b)
  | some c => !v.inReset && ((v.brakeLive b && (v.brake b).cmp) || c.getLsbD (48 + b))

/-- The core cycle at which the minimum off time of a brake gate ends (R96). -/
def Vent.brakeFreeAt (v : Vent) (b : Nat) : Nat := match (v.brake b).offAt with
  | none => 0
  | some t => t + v.brakeDt b

/-- The gate of a brake leg follows what calls for it; a turn-on waits for the minimum off time and the hold. -/
def Vent.brakeUpdate (v : Vent) (now b : Nat) : Vent :=
  let g := v.brake b
  if v.brakeWant b then
    if !g.gate && !g.hold && decide (v.brakeFreeAt b ≤ now) then v.modBrake b fun g => { g with gate := true } else v
  else if g.gate then v.modBrake b fun g => { g with gate := false, soft := false, offAt := some now }
  else v

/-- A confirmed configuration: a brake leg without a LEG record has an inactive comparator from here on (R93). -/
def Vent.takeCfg (v : Vent) (c : VentCfg) : Vent :=
  (List.range 4).foldl (fun v b => if v.brakeLive b then v else v.modBrake b fun g => { g with cmp := false })
    { v with cfg := c, cfgOk := true, vrst := false }

/-- Every brake leg follows what calls for it. -/
def Vent.brakesUpdate (v : Vent) (now : Nat) : Vent := (List.range 4).foldl (fun v b => v.brakeUpdate now b) v

/-- A short detection on a brake leg (R112). -/
def Vent.brakeShort (v : Vent) (now b stamp : Nat) : Vent :=
  let v := { v with first := v.first.add (24 + b) false stamp }
  v.modBrake b fun g => { g with
    gate := false, soft := true, offAt := some now, hold := true, sc := true, sccnt := satAdd 16 g.sccnt 1 }

/-! ### Faults and arming (R115, R117, R419) -/

/-- A fault of R115 is latched for the axis or one of its legs in the Vent die. -/
def Vent.faulted (v : Vent) (k : Nat) : Bool :=
  let a := v.axis k
  a.trip || a.link || a.tsd ||
  (legsOf k).any fun l => let g := v.leg l; g.h.vds || g.l.vds || g.bstuv || g.xlockf

/-- The refusal reason of ARM_REQ, 0 for none (R419). -/
def Vent.refuse (v : Vent) (k : Nat) : Nat :=
  let a := v.axis k
  if a.st ≠ .safe ∨ (a.act ≠ .none ∧ v.faulted k) then 1
  else if v.faulted k then 2
  else if !v.cfgOk then 3
  else if decide ((v.temp.getD 0) ≥ ((8 * (v.cfg.tsd - v.cfg.hsd) : Nat) : Int)) && v.temp.isSome then 4
  else if v.dfail then 5
  else if v.vlow then 6
  else 0

/-- The axis becomes ARMED; a standing stop action ends with its gates off (R114). -/
def Vent.arm (v : Vent) (now k : Nat) : Vent :=
  let v := v.modAxis k fun a => { a with st := .armed, act := .none, cause := .idle, gang := false, chal := none, noRun := 0 }
  (legsOf k).foldl (fun v l => v.modLeg l fun g => { g.allOff now false with inh := false }) v

/-! ### Temperature (R427, R430) -/

/-- Thermal shutdown: every axis that is not SAFE, or on which a lower action stands, coasts; TSD is latched for every
axis; challenges close (R432). -/
def Vent.shutdown (v : Vent) (now : Nat) : Vent :=
  let v := (List.range 8).foldl (fun v k =>
    (v.stop now k .tsd .coast true).modAxis k fun a => { a with tsd := true, chal := none }) v
  { v with tsdLatch := true }

/-- One diode reading, in 0.125 °C. -/
def Vent.diode (v : Vent) (now : Nat) (ok : Bool) (t : Int) : Vent :=
  if ok then
    let hot := decide (t ≥ ((8 * v.cfg.tsd : Nat) : Int))
    let v' := { v with dfail := false, temp := some t, tsdPrev := hot }
    if hot && v.tsdPrev && !v.tsdLatch then v'.shutdown now else v'
  else { v with dfail := true, tsdPrev := false }

/-! ### Scan mode (R459, R460) -/

/-- A gate turns off for its cell; one whose cell was at 1 is commanded off now, on or not (R85). -/
def VGate.scanOff (g : VGate) (now : Nat) (was : Bool) : VGate := if was then g.command now else g.off now false

/-- The leg's gate `high` turns on for its cell, at once or after the dead time from the other gate's off command (R85). `was`
is the other gate's cell before. A turn-on that waits, and one after the interlock, is held back and counts (R85, R86). -/
def VLeg.scanOn (g : VLeg) (now dt : Nat) (high was : Bool) : VLeg :=
  let g := g.modGate (!high) fun x => x.scanOff now was
  if (g.gate high).on then { g with pend := none, ilock := false }
  else if g.pend = some high then g
  else if now < g.clearAt dt high then { g.holdBack dt high with ilock := false }
  else { (g.modGate high VGate.turnOn) with pend := none, ilock := false }

/-- A leg follows its two cells; both at 1 hold both gates off, and the interlock counts (R86). `wasH` and `wasL` are the
cells before. -/
def VLeg.scanFollow (g : VLeg) (now dt : Nat) (wasH wasL h l : Bool) : VLeg :=
  if h && !l then g.scanOn now dt true wasL
  else if l && !h then g.scanOn now dt false wasH
  else if h then { g.allOff now false with ilock := true, xlock := if g.ilock then g.xlock else satAdd 16 g.xlock 1 }
  else { g with h := g.h.scanOff now wasH, l := g.l.scanOff now wasL, pend := none, ref := .off, ilock := false }

/-- Scan mode with these cells: every axis is SAFE, no stop action stands, and the gates follow the cells. At its start no
interlock of the command lines holds a leg. -/
def Vent.scanAs (v : Vent) (now : Nat) (c : BitVec 91) : Vent :=
  let was := fun n => match v.scan with
    | none => false
    | some x => x.getLsbD n
  let held := v.scan.isSome
  let v := (List.range 8).foldl (fun v k => v.modAxis k fun a =>
    { a with st := .safe, act := .none, cause := .idle, chal := none, noRun := 0 }) { v with scan := some c }
  let v := (List.range 24).foldl (fun v l => v.modLeg l fun g =>
    ({ g with ref := .off, inh := false, ilock := g.ilock && held, pend := if held then g.pend else none }).scanFollow now (v.dt l)
      (was (2 * l)) (was (2 * l + 1)) (c.getLsbD (2 * l)) (c.getLsbD (2 * l + 1))) v
  v.brakesUpdate now

/-- Scan mode ends: every gate is held off, every axis is SAFE. -/
def Vent.scanEnd (v : Vent) (now : Nat) : Vent :=
  ((List.range 24).foldl (fun (v : Vent) l => v.modLeg l fun g => g.allOff now false) { v with scan := none }).brakesUpdate now

/-- The levels that the cells give the gates under the current instruction: none outside scan mode; all 0 under HIGHZ and
while a high-voltage node stands above the threshold. -/
def Tap.cells (t : Tap) : Option (BitVec 91) := match t.instr with
  | .extest => some (if t.hv then 0 else t.latch)
  | .clamp => some (if t.hv then 0 else t.latch)
  | .highz => some 0
  | _ => none

/-- The Vent die follows the TAP. -/
def Dev.scanFollow (d : Dev) : Dev :=
  if d.vent.inReset then d
  else match d.tap.cells with
    | some c => d.modVent fun v => v.scanAs d.clk.now c
    | none => if d.vent.scan.isSome then d.modVent fun v => v.scanEnd d.clk.now else d

/-! ### Reset (R102) -/

/-- The Vent die in its own reset: every gate off, every axis SAFE, no configuration, latches cleared, VRST = 1. No stop
action stands. DEDUCED (log entry 74, unsafe): R24 and R25 name a stop action for a Vent-die reset, R102, R114 and R122
turn every gate off and end any action; the latter are followed. -/
def Vent.reset : Vent := {}

end Sys2Proof.Machine
end

