-- ==== Sys2Proof/Machine/Lines.lean ====
section
/-! DEFINITION. Command lines between the dies, and the passing of time: the clock, the angle generators, and the lines of
an axis that has left RUN. -/

namespace Sys2Proof.Machine

/-! ### Falling command lines (R85, R86, R99) -/

/-- The legs of the Vent die that the command lines of leg unit `l` drive: a parallel primary's lines are repeated on the
secondary's legs (R42, R83). -/
def Dev.lineLegs (d : Dev) (l : Nat) : List Nat := if d.par (axisOf l) then [l, l + 3] else [l]

/-- The leg unit whose lines drive leg `l` of the Vent die. -/
def Dev.lineUnit (d : Dev) (l : Nat) : Nat := if d.parSec (axisOf l) then l - 3 else l

/-- The Vent die's side of a falling command line: the gate is commanded off, and turns off with its normal sink step. A leg
held by the interlock is released; the command still high is a new turn-on, which comes within the dead time and is held
back (R85, R86). -/
def Vent.lineFall (v : Vent) (now l : Nat) (high other : Bool) : Vent :=
  if (v.axis (axisOf l)).st = .run then
    v.modLeg l fun g =>
      let g := g.modGate high fun x => x.command now
      let g := if g.pend = some high then { g with pend := none } else g
      if g.ilock then
        if other then { g with ilock := false, pend := some (!high), pendAt := now + v.dt l, dtfix := satAdd 16 g.dtfix 1 }
        else { g with ilock := false, pend := none }
      else g
  else v

/-- A command line falls, if it is high; `other` says whether the leg's other command stays high. -/
def Dev.lineDown (d : Dev) (l : Nat) (high other : Bool) : Dev :=
  let u := d.leg l
  if (if high then u.hcmd else u.lcmd) then
    let d := d.modLeg l fun u => if high then { u with hcmd := false } else { u with lcmd := false }
    let d := d.modComm (axisOf l) fun c => { c with edges := (d.clk.now :: c.edges).take 64 }
    (d.lineLegs l).foldl (fun d m => d.modVent fun v => v.lineFall d.clk.now m high other) d
  else d

/-- A command line falls alone. -/
def Dev.lineFall (d : Dev) (l : Nat) (high : Bool) : Dev :=
  d.lineDown l high (if high then (d.leg l).lcmd else (d.leg l).hcmd)

/-- Both commands fall at once and nothing is pending. -/
def Dev.linesLow (d : Dev) (l : Nat) : Dev :=
  ((d.lineDown l true false).lineDown l false false).modLeg l fun u => { u with pend := none, ref := .off, leaving := false }

/-! ### Time (R6, R236) -/

/-- `n` core cycles pass for the clock and every angle generator. -/
def Dev.runOn (d : Dev) (n : Nat) : Dev :=
  if n = 0 then d
  else (List.range 8).foldl
    (fun x k => if (x.comm k).rate = 0 then x
      else x.modComm k fun u => { u with g := unsigned 48 ((u.g : Int) + u.rate * n) })
    { d with clk := { d.clk with now := d.clk.now + n } }

/-- The lines of the legs whose axis has left RUN in the core cycle before fall (R98). -/
def Dev.dropLines (d : Dev) : Dev := d.each (List.range 24) fun l d => if (d.leg l).leaving then d.linesLow l else d

/-- A checkpoint burst is cut short: its half keeps VALID = 0 and is not named (R196). -/
def Dev.cutBurst (d : Dev) (e : Nat) : Dev :=
  match (d.eng e).burst with
  | none => d
  | some _ => d.modEng e fun u => { u with burst := none }

/-- `n` core cycles pass: the lines of an axis that has left RUN fall in the first of them, and the banks are arbitrated. -/
def Dev.advance (d : Dev) (n : Nat) : Dev :=
  let d := if n ≠ 0 ∧ d.legs.any (fun p => p.2.leaving) = true then ((d.runOn 1).dropLines).runOn (n - 1) else d.runOn n
  d.arbTo d.clk.now

/-- Time moves on to core cycle `t` of the frame, if that lies ahead. -/
def Dev.at_ (d : Dev) (t : Nat) : Dev := d.advance (d.clk.frameStart + t - d.clk.now)

/-- Time moves on to a core cycle counted from power-on, if that lies ahead. -/
def Dev.toCycle (d : Dev) (t : Nat) : Dev := d.advance (t - d.clk.now)

/-- Time moves on to the core cycle of a fine step counted from power-on, if that lies ahead (R77). -/
def Dev.toFine (d : Dev) (t : Nat) : Dev := d.toCycle (t / 8)

/-- What a step does on an empty queue: one core cycle passes (DESIGN CHOICE, log entry 1). -/
def idle (s : State) : Host.Outcome State Fault Refusal := s.lift fun d => d.advance 1

end Sys2Proof.Machine
end

