-- ==== Sys2Proof/Machine/Legs.lean ====
section
/-! DEFINITION. PWM leg units and brake leg units on the control die (chapter 4): edges, floats, refresh, immediate
duties. -/

namespace Sys2Proof.Machine

/-! ### Arithmetic of a carrier (R80, R82) -/

/-- The commanded high-side time in fine steps of a duty over a carrier of `t8` fine steps, ties up (R80). -/
def carrierN (duty t8 : Nat) : Nat := (duty * t8 + 2 ^ 30) / 2 ^ 31

/-- The two minimum-pulse tests: dead time and minimum pulse in fine steps (R82). -/
def minPulse (n t8 dt m : Nat) : Nat :=
  let n1 := if 0 < n ∧ n < t8 ∧ n < dt + m then 0 else n
  if 0 < n1 ∧ n1 < t8 ∧ t8 - n1 < dt + m then t8 else n1

/-- HON and HOFF (R80); both are 0 when there is no high pulse. `p8` is the peak in fine steps. -/
def carrierEdges (edgeAligned : Bool) (n t8 p8 : Nat) : Nat × Nat :=
  if n = 0 then (0, 0)
  else if edgeAligned then (0, n)
  else let hon := min (p8 - n / 2) (t8 - n); (hon, hon + n)

/-- Dead time of a leg in fine steps (R81). -/
def Dev.dtf (d : Dev) (l : Nat) : Nat := 64 * (d.get F.LEG_CFG_DT l + 1)

/-- Minimum pulse of a leg in fine steps (R82). -/
def Dev.mf (d : Dev) (l : Nat) : Nat := 8 * d.get F.LEG_CFG_MINPULSE l

/-- The peak of the running carrier in core cycles after its start (R78). -/
def Dev.peak (d : Dev) (l : Nat) : Nat := if d.flag F.LEG_CFG_TWO l then d.len / 4 else d.len / 2

/-- The fine step of the running carrier (R77). -/
def Dev.fine (d : Dev) (l : Nat) : Nat := 8 * (d.clk.now - (d.leg l).cAt)

/-- The width W of a refresh pulse in fine steps (R90). -/
def Dev.refW (d : Dev) (l : Nat) : Nat := max (320 * (d.get F.LEG_CFG_REFW l + 1)) (d.mf l)

/-- The axis whose commutation unit and sequencer serve axis `k`: the primary of a pair (R246, R247). -/
def Dev.owner (d : Dev) (k : Nat) : Nat :=
  if (d.topo k).en && ((d.topo k).kind == 2 || (d.topo k).kind == 4) then k - 1 else k

/-- Leg unit `l` makes edges of its own: its axis is enabled and is no parallel secondary. -/
def Dev.ownsLeg (d : Dev) (l : Nat) : Bool := d.enabled (axisOf l) && !d.parSec (axisOf l)

/-- The edges in force: a leg with a short request takes N = 0 (R260). -/
def Dev.pattern (d : Dev) (l : Nat) : Nat × Nat :=
  if (d.comm (d.owner (axisOf l))).short then (0, 0) else (d.get F.LEG_EDGE_HON l, d.get F.LEG_EDGE_HOFF l)

/-! ### Command lines -/

/-- A command line rises at fine step `t`: the leg's own gate turns on if its Vent axis is in RUN; a parallel secondary's
gate follows with its own turn-on. -/
def Dev.lineRise (d : Dev) (l t : Nat) (high : Bool) (bstMv : Nat) : Dev :=
  let d := d.modLeg l fun u =>
    if high then { u with hcmd := true, pend := none, hOnAt := t }
    else { u with lcmd := true, pend := none, lowSeen := true, lOnAt := t }
  let d := d.modComm (axisOf l) fun c => { c with edges := (d.clk.now :: c.edges).take 64 }
  (d.lineLegs l).foldl (fun d m =>
    if (d.vent.axis (axisOf m)).st = .run then
      d.modVent fun v => v.modLeg m fun g =>
        if m = l then g.turnOn d.clk.now (v.dt m) high bstMv
        else if d.clk.now < g.clearAt (v.dt m) high then g.holdBack (v.dt m) high
        else { g with pend := some high, pendAt := d.clk.now }
    else d) d

/-- The commanded level becomes high or low at fine step `t`: the other gate turns off and the turn-on waits for the dead
time (R81). A level that stands already is no edge (R80); where both lines are high, the other one falls (R86). -/
def Dev.command (d : Dev) (l t : Nat) (high : Bool) : Dev :=
  let u := d.leg l
  if u.hcmd && u.lcmd then d.lineFall l (!high)
  else if (if high then u.hcmd else u.lcmd) || u.pend = some high then d
  else (d.lineFall l (!high)).modLeg l fun u => { u with pend := some high, pendAt := t + d.dtf l }

/-! ### Floats (R87, R91) -/

/-- A float request stands for the leg: commutation unit, RUN entry, or a whole-axis float (R87, R88, R253). -/
def Dev.floatReq (d : Dev) (l : Nat) : Bool :=
  (d.leg l).cfloat || d.flag F.LEG_STAT_ENTRY l || (d.comm (d.owner (axisOf l))).allFloat

/-- A float begins. The low pulse of a refresh sequence runs its full width first, also where its turn-on still waits for
its dead time (R91, R98; log entry 76); a refresh that is due is deferred. -/
def Dev.floatStart (d : Dev) (l : Nat) : Dev :=
  let d := d.modComm (d.owner (axisOf l)) fun c => { c with floatAt := uset c.floatAt (l % 3) d.clk.now }
  match (d.leg l).ref with
  | .lowWait => d
  | .low => d
  | .due => (d.linesLow l).modLeg l fun u => { u with refDue := true }
  | _ => d.linesLow l

/-- A refresh sequence is made from fine step `t` on: it counts, and its low pulse waits for the dead time (R90). -/
def Dev.refreshStart (d : Dev) (l t : Nat) : Dev :=
  let d := (d.bump F.LEG_STAT_REFCNT l).command l t false
  d.modLeg l fun u => if u.lcmd then { u with ref := .low, refDue := false, lOnAt := t + d.dtf l }
    else { u with ref := .lowWait, refDue := false }

/-- The leg takes up the pattern of the running carrier at this point; a pulse that would last less than M_f after its
turn-on is not made (R87). -/
def Dev.takePattern (d : Dev) (l : Nat) : Dev :=
  let t := d.fine l
  let e := d.pattern l
  let t8 := 8 * (d.leg l).cLen
  if e.1 ≤ t ∧ t < e.2 then
    if e.2 < t + d.dtf l + d.mf l then d else d.command l (8 * d.clk.now) true
  else
    let stop := if t < e.1 then e.1 else t8
    if stop < t + d.dtf l + d.mf l then d else d.command l (8 * d.clk.now) false

/-- The step of a leg that does not float at a boundary: a refresh sequence in progress completes; one that is due is
awaited, unless a short request leaves the carrier no high pulse (R260); otherwise the pattern of the new carrier begins
(R80, R90, R98). -/
def Dev.boundaryStep (d : Dev) (l : Nat) (due : Bool) : Dev :=
  let e := d.pattern l
  let due := due && decide (0 < e.2)
  let d := (d.putB F.LEG_STAT_FLOAT l false).modLeg l fun u => { u with refDue := false }
  if (d.leg l).ref ≠ .off ∧ (d.leg l).ref ≠ .due then d
  else if due then d.modLeg l fun u => { u with ref := .due }
  else (d.command l (8 * (d.leg l).cAt) (decide (e.1 = 0 ∧ 0 < e.2))).modLeg l fun u => { u with ref := .off }

/-- A float ends. A low pulse of a refresh sequence that still runs goes on, and the sequence completes (log entry 76). In
the core cycle of a carrier boundary the boundary counts as taken with the leg not floating (R98). -/
def Dev.floatEnd (d : Dev) (l : Nat) : Dev :=
  if !d.flag F.LEG_STAT_OUTEN l then d
  else if (d.leg l).ref = .low ∨ (d.leg l).ref = .lowWait then d
  else if (d.leg l).cAt = d.clk.now then d.boundaryStep l (d.leg l).refDue
  else
    let e := d.pattern l
    if (d.leg l).refDue && decide (d.get F.LEG_CFG_BSTMAX l ≤ d.get F.LEG_STAT_BCNT l) &&
        decide (e.1 ≤ d.fine l ∧ 0 < e.2 ∧ 8 * (d.leg l).cLen ≤ e.2) then d.refreshStart l (8 * d.clk.now)
    else (d.modLeg l fun u => { u with refDue := false }).takePattern l

/-- A parallel secondary's status shows its primary's (R83, R247). -/
def Dev.mirrorStat (d : Dev) (l : Nat) : Dev :=
  (d.lineLegs l).foldl (fun d m => if m = l then d else
    (((d.put F.LEG_STAT_FLOAT m (d.get F.LEG_STAT_FLOAT l)).put F.LEG_STAT_ENTRY m (d.get F.LEG_STAT_ENTRY l)).put
      F.LEG_STAT_BCNT m (d.get F.LEG_STAT_BCNT l)).put F.LEG_STAT_REFCNT m (d.get F.LEG_STAT_REFCNT l)) d

/-- LEG_STAT.FLOAT follows the requests, and the float begins or ends. At a tick whose carrier boundary is still to come,
the boundary takes the requests (R98). -/
def Dev.reFloat (d : Dev) (l : Nat) : Dev :=
  let now := d.floatReq l && d.flag F.LEG_STAT_OUTEN l
  let was := d.flag F.LEG_STAT_FLOAT l
  if now == was || (d.ownsLeg l && decide ((d.leg l).cAt < d.clk.frameStart)) then d
  else
    let d := d.putB F.LEG_STAT_FLOAT l now
    (if now then d.floatStart l else d.floatEnd l).mirrorStat l

/-- The legs that the whole-axis requests of a sequencer reach: a six-phase primary's own and the secondary's (R246). -/
def Dev.axisLegs (d : Dev) (k : Nat) : List Nat := if d.six k then legsOf k ++ legsOf (k + 1) else legsOf k

/-- The FLOAT bits of every leg of an axis follow the requests. -/
def Dev.reFloatAxis (d : Dev) (k : Nat) : Dev := d.each (d.axisLegs k) fun l d => d.reFloat l

/-! ### Carriers (R20, R80, R82, R88 to R90) -/

/-- The edges of the active duty in a carrier of the leg; a leg with a short request takes N = 0 (R80, R82, R260). -/
def Dev.loadEdges (d : Dev) (l : Nat) : Dev :=
  let d := d.modLeg l fun u => { u with minpWas := d.flag F.LEG_STAT_MINP l }
  let t8 := 8 * (d.leg l).cLen
  let n0 := if (d.comm (d.owner (axisOf l))).short then 0 else carrierN (d.reg (F.LEG_ADUTY.at_ l)).toNat t8
  let n := minPulse n0 t8 (d.dtf l) (d.mf l)
  let e := carrierEdges (d.flag F.LEG_CFG_EDGE l) n t8 (8 * d.peak l)
  let d := (d.put F.LEG_EDGE_HON l e.1).put F.LEG_EDGE_HOFF l e.2
  if n = n0 then d else d.putB F.LEG_STAT_MINP l true

/-- A short request reaches a leg: the running carrier has no high pulse. A carrier that begins in this very cycle has none
from its start, so its duty has suppressed no pulse (R82, R260). -/
def Dev.shortLeg (d : Dev) (l : Nat) : Dev :=
  let d := if (d.leg l).cAt = d.clk.now then d.putB F.LEG_STAT_MINP l (d.flag F.LEG_STAT_MINP l && (d.leg l).minpWas) else d
  d.loadEdges l

/-- The step of a leg at a boundary that a float begins at or stands over: a refresh that is due is deferred (R91, R98). -/
def Dev.boundaryFloat (d : Dev) (l : Nat) (due : Bool) : Dev :=
  let d := if d.flag F.LEG_STAT_FLOAT l then d else (d.putB F.LEG_STAT_FLOAT l true).floatStart l
  d.modLeg l fun u => { u with refDue := due }

/-- A carrier of the leg begins at cycle `start` of the frame with length `len` (R78). -/
def Dev.carrier (d : Dev) (l start len : Nat) : Dev :=
  if !d.ownsLeg l then d else
  let d := if (d.leg l).lowSeen then d.put F.LEG_STAT_BCNT l 0 else d.bump F.LEG_STAT_BCNT l
  let d := d.setReg (F.LEG_ADUTY.at_ l) (d.reg (F.LEG_SDUTY.at_ l))
  let d := d.modLeg l fun u => { u with cAt := d.clk.frameStart + start, cLen := len }
  let d := (d.lineLegs l).foldl (fun d m => d.modVent fun v => v.modLeg m fun g =>
    if g.bstuv then g else { g with inh := false }) d
  let d := d.loadEdges l
  let d := if (d.leg l).written then d.putB F.LEG_STAT_ENTRY l false else d
  let e := d.pattern l
  let due := decide (d.get F.LEG_CFG_BSTMAX l ≤ d.get F.LEG_STAT_BCNT l) && decide (e.1 = 0 ∧ 0 < e.2 ∧ 8 * len ≤ e.2)
  let d :=
    if !d.flag F.LEG_STAT_OUTEN l then d.putB F.LEG_STAT_FLOAT l false
    else if d.floatReq l then d.boundaryFloat l due
    else d.boundaryStep l due
  (d.modLeg l fun u => { u with lowSeen := u.lcmd }).mirrorStat l

/-- The first carrier of a frame begins at the tick (R18, R20). -/
def Dev.tickCarrier (d : Dev) (l : Nat) : Dev :=
  d.carrier l 0 (if d.flag F.LEG_CFG_TWO l then d.len / 2 else d.len)

/-- The second carrier of a frame begins at half the frame (R20, R78). -/
def Dev.halfCarrier (d : Dev) (l : Nat) : Dev :=
  if d.awake && d.sys.sealed && d.clk.ticked && d.ownsLeg l && d.flag F.LEG_CFG_TWO l && (d.leg l).cAt == d.clk.frameStart then
    let d := d.at_ (d.len / 2)
    d.carrier l (d.len / 2) (d.len - d.len / 2)
  else d

/-! ### Command edges (R81, R90) -/

/-- The end of a refresh's low pulse at fine step `t` (R90, R91, R98): under a float the sequence ends; otherwise the high
gate follows after the dead time, or the pattern of an immediate duty that calls for the low gate then. -/
def Dev.refreshLowEnd (d : Dev) (l t : Nat) : Dev :=
  let d := d.lineFall l false
  let e := d.pattern l
  let last := t + d.dtf l - 8 * (d.leg l).cAt
  if d.flag F.LEG_STAT_FLOAT l then d.modLeg l fun u => { u with ref := .off, pend := none }
  else if e.1 ≤ last ∧ last < e.2 then
    d.modLeg l fun u => { u with ref := .highWait, pend := some true, pendAt := t + d.dtf l }
  else (d.modLeg l fun u => { u with ref := .off, pend := none }).takePattern l

/-- A command edge of a phase leg, at its fine step of the carrier (R80, R81): HON, unless HOFF has passed; HOFF, but not
before a high pulse has lasted M_f (R84); and the steps of a refresh sequence (R90). -/
def Dev.legEdge (d : Dev) (l : Nat) (edge : PwmEdge) : Dev :=
  let u := d.leg l
  let e := d.pattern l
  let free := d.flag F.LEG_STAT_OUTEN l && !d.flag F.LEG_STAT_FLOAT l && u.ref == .off
  let on := 8 * u.cAt + e.1
  let off := max (8 * u.cAt + e.2) (if u.hcmd then u.hOnAt + d.mf l else 0)
  match edge with
  | .hon =>
    if free && decide (e.1 < e.2 ∧ 8 * d.clk.now < 8 * u.cAt + e.2) then
      let d := d.toFine on
      d.command l (max on (8 * d.clk.now)) true
    else d
  | .hoff =>
    if free && (decide (e.1 < e.2) || u.hcmd || u.pend == some true) && decide (e.2 < 8 * u.cLen) then
      let d := d.toFine off
      d.command l (max off (8 * d.clk.now)) false
    else d
  | .refHighOff => if u.ref == .due then d.refreshStart l (8 * d.clk.now) else d
  | .refLowOff =>
    if u.ref == .low then
      let t := max (u.lOnAt + d.refW l) (8 * d.clk.now)
      (d.toFine t).refreshLowEnd l t
    else if (d.vent.leg l).ref == .low then
      let d := d.toCycle ((d.vent.leg l).lOnAt + d.vent.refWidth l)
      d.modVent fun v => v.modLeg l fun g => { g with
        l := g.l.off d.clk.now false, ref := .highWait, pend := some true, pendAt := d.clk.now + v.dt l }
    else d

/-- A command edge of a brake leg: its high time runs from the tick to HOFF (R95). -/
def Dev.brakeEdge (d : Dev) (b : Nat) (edge : PwmEdge) : Dev :=
  match edge with
  | .hoff =>
    let n := carrierN (d.reg (F.BRK_DUTY.at_ b)).toNat (8 * d.len)
    if (d.vent.brake b).cmd && decide (n < 8 * d.len) then
      let d := d.at_ (n / 8)
      d.modVent fun v => (v.modBrake b fun g => { g with cmd := false }).brakeUpdate d.clk.now b
    else d
  | _ => d

/-- The brake leg unit at the tick: the duty of the frame, and its command line (R95). -/
def Dev.brakeTick (d : Dev) (b : Nat) : Dev :=
  let u := d.brk b
  let n := carrierN u.next (8 * d.len)
  let d := (d.put F.BRK_DUTY b u.next).putB F.BRK_STAT_RAMPD b u.wrote
  let d := d.modBrk b fun u => { u with next := 0, wrote := false }
  d.modVent fun v => (v.modBrake b fun g => { g with cmd := decide (0 < n) }).brakeUpdate d.clk.now b

/-! ### Turn-ons (R81, R92, R104, R113) -/

/-- The step that a refresh sequence takes with a turn-on of gate `high`. -/
def RefStep.after (r : RefStep) (high : Bool) : RefStep :=
  if r = .lowWait ∧ !high then .low else if r = .highWait ∧ high then .off else r

/-- A gate turns on at the end of its dead time (R81, R85): a turn-on of the Vent die itself or one that it holds back, or
the leg unit's. `early` is a leg unit that raises its line before the end. A high gate that was inhibited in a carrier that
is over is compared anew, unless BSTUV holds it off (R104, R105). -/
def Dev.gateOn (d : Dev) (l : Nat) (high : Bool) (bstMv : Nat) (early : Bool) : Dev :=
  if (d.vent.leg l).pend = some high then
    let d := d.toCycle (d.vent.leg l).pendAt
    let u := d.leg (d.lineUnit l)
    let past := decide (u.cAt + u.cLen ≤ d.clk.now)
    d.modVent fun v => v.modLeg l fun g =>
      let g := { g with pend := none, ref := g.ref.after high, lOnAt := if high then g.lOnAt else d.clk.now
                        inh := g.inh && (g.bstuv || !past) }
      if d.vent.scan.isSome then (if (g.gate (!high)).on then g else g.modGate high VGate.turnOn)
      else g.turnOn d.clk.now (v.dt l) high bstMv
  else if (d.leg l).pend = some high ∧ d.flag F.LEG_STAT_OUTEN l then
    let at_ := (d.leg l).pendAt
    let d := if early then d else d.toFine at_
    let t := if early then 8 * d.clk.now else max at_ (8 * d.clk.now)
    (d.lineRise l t high bstMv).modLeg l fun u => { u with ref := u.ref.after high }
  else d

/-! ### Duties (R79, R83, R84) -/

/-- A duty clamped to 0 … 1.0. -/
def clampDuty (w : Word) : Word := if w.toInt < 0 then 0 else if w.toInt > p32One then 0x80000000#40 else w

/-- A shadow write: clamped, SAT on a clamp, and marked as written since RUN entry (R79, R83, R88). -/
def Dev.shadowDuty (d : Dev) (l : Nat) (w : Word) : Dev :=
  let d := if clampDuty w = w then d else d.putB F.LEG_STAT_SAT l true
  (d.setReg (F.LEG_SDUTY.at_ l) (clampDuty w)).modLeg l fun u => { u with written := true }

/-- An immediate write (R84): the shadow and the active duty, the edges of the running carrier, and the action at once. A
high pulse that is cut short lasts M_f, so its command then falls at a later edge. -/
def Dev.immediateDuty (d : Dev) (l : Nat) (w : Word) : Dev :=
  let d := d.shadowDuty l w
  let d := d.setReg (F.LEG_ADUTY.at_ l) (clampDuty w)
  let d := (d.loadEdges l).putB F.LEG_STAT_IMM l true
  let u := d.leg l
  let t := d.fine l
  let e := d.pattern l
  if !d.flag F.LEG_STAT_OUTEN l || d.flag F.LEG_STAT_FLOAT l || u.ref != .off then d
  else if u.hcmd || u.pend == some true then
    if e.2 ≤ t && !(u.hcmd && decide (8 * d.clk.now < u.hOnAt + d.mf l)) then d.command l (8 * d.clk.now) false else d
  else if e.1 ≤ t ∧ t < e.2 ∧ t + d.dtf l + d.mf l ≤ e.2 then d.command l (8 * d.clk.now) true
  else d

/-! ### Entering and leaving RUN (R88) -/

/-- A leg at RUN entry. -/
def Dev.legEnter (d : Dev) (l : Nat) : Dev :=
  let d := (d.setReg (F.LEG_SDUTY.at_ l) 0).setReg (F.LEG_ADUTY.at_ l) 0
  let d := (d.put F.LEG_STAT_BCNT l 255).putB F.LEG_STAT_ENTRY l true
  let d := (d.putB F.LEG_STAT_OUTEN l true).putB F.LEG_STAT_FLOAT l true
  d.modLeg l fun u => { u with
    hcmd := false, lcmd := false, pend := none, leaving := false, cfloat := false, written := false, lowSeen := false
    ref := .off, refDue := false }

/-- A leg outside RUN: nothing is pending, and both command lines fall in the next core cycle (R88, R98). -/
def Dev.legLeave (d : Dev) (l : Nat) : Dev :=
  let d := d.modLeg l fun u => { u with
    pend := none, leaving := u.hcmd || u.lcmd, ref := .off, cfloat := false, refDue := false, written := false }
  ((d.putB F.LEG_STAT_OUTEN l false).putB F.LEG_STAT_ENTRY l false).putB F.LEG_STAT_FLOAT l false

end Sys2Proof.Machine
end

