-- ==== Sys2Proof/Machine/Stops.lean ====
section
/-! DEFINITION. Authority on the control die: leaving RUN, stop requests, the RAMP and its ends, RUN entry (chapters 12
and 19). -/

namespace Sys2Proof.Machine

/-- Raise event EV(8k+n) of axis `k`. -/
def Dev.axEvent (d : Dev) (k n : Nat) : Dev := d.raise (8 * k + n)

/-- Entry to IDLE (R251): requests released, WEN cleared, G and RATE 0. Windows close without a miss (R250). -/
def CommUnit.toIdle (c : CommUnit) : CommUnit :=
  { c with st := .idle, g := 0, rate := 0, wen := false, win := none, det := {}, dets := [], run := [], dir := none,
           amps := [], allFloat := false, short := false, wait := false, recov := none, ramp := none, ticks := 0, clRuns := 0 }

/-- A RAMP ends with a cause of R267: REND, the RAMP flag, and EV(8k+5). -/
def Dev.endRamp (d : Dev) (k rend : Nat) : Dev :=
  (((d.put F.AX_SSTAT_REND k rend).putB F.AX_SSTAT_RAMP k false).modComm k fun c => { c with ramp := none }).axEvent k 5

/-- The axis leaves RUN on the control die: a RAMP in progress ends with LEFT, the sequencer goes to IDLE and the legs
drop their lines (R88, R251, R267). -/
def Dev.leaveRun (d : Dev) (k : Nat) : Dev :=
  let d := if (d.comm k).ramp.isSome then d.endRamp k 6 else d
  let d := d.modComm k fun c => if c.st = .enc then { c with ramp := none } else c.toIdle
  let d := ((d.putB F.AX_SSTAT_WAIT k false).putB F.AX_SSTAT_RECOV k false)
  d.each (legsOf k) fun l d => d.legLeave l

/-- The control die lowers its state of an axis to SAFE (R421 step 1, R423, R425). -/
def Dev.lower (d : Dev) (k : Nat) : Dev :=
  match d.cst k with
  | .safe => d
  | .armed => d.setCst k .safe
  | .run => (d.setCst k .safe).leaveRun k

/-- A STOP packet is sent and the request is repeated in every heartbeat (R421 step 2). -/
def Dev.sendStop (d : Dev) (k : Nat) (act : StopAct) : Dev :=
  d.modLink fun l => { l with stopPkt := uset l.stopPkt k (some act), stopReq := uset l.stopReq k (some act) }

/-- Lower one axis and ask the Vent die for an action: NONE for an axis that was only ARMED (R421). -/
def Dev.lowerWith (d : Dev) (k : Nat) (act : StopAct) : Dev :=
  match d.cst k with
  | .safe => d
  | .armed => (d.lower k).sendStop k .none
  | .run => (d.lower k).sendStop k act

/-- The axis whose sequencer, RAMP and stop policy serve a ganged pair (R42). -/
def Dev.lead (d : Dev) (k : Nat) : Nat := (d.gang k).headD k

/-- The stored action of an axis, RAMP replaced by its fallback (R24, R25). -/
def Dev.stored (d : Dev) (k : Nat) : StopAct :=
  let p := d.lead k
  StopAct.ofPolicy (d.get F.LEG_CFG_POLICY (3 * p)) (d.get F.LEG_CFG_FALLBACK (3 * p))

/-- Stop an axis and its ganged partner with their stored actions, without a RAMP. -/
def Dev.stopNow (d : Dev) (k : Nat) : Dev := d.each (d.gang k) fun j d => d.lowerWith j (d.stored j)

/-- An angle is available for a RAMP (R266). -/
def Dev.hasAngle (d : Dev) (k : Nat) : Bool :=
  if (d.topo k).drive == 2 then d.flag F.FBK_STAT_SPDV (d.topo k).fbk else (d.comm k).st == .track

/-- A RAMP ends for one of the causes 1 to 5 of R267 and the fallback is requested. -/
def Dev.finishRamp (d : Dev) (k rend : Nat) : Dev := (d.endRamp k rend).stopNow k

/-- A stop request for an "other cause" of R25: the stored policy, RAMP included (R266, R421). -/
def Dev.requestStop (d : Dev) (k : Nat) : Dev :=
  let p := d.lead k
  if d.cst p = .run ∧ d.get F.LEG_CFG_POLICY (3 * p) = 3 then
    if (d.comm p).ramp.isSome then d
    else if d.hasAngle p then d.modComm p fun c => { c with ramp := some d.clk.now }
    else d.finishRamp p 4
  else d.stopNow k

/-- A stop for a cause that does not permit RAMP, requested by the control die (R424). -/
def Dev.stopNoRamp (d : Dev) (k : Nat) : Dev := d.lowerWith k (d.stored k)

/-! ### RUN entry (R88, R243, R306, R417) -/

/-- The Vent die's last report for the axis showed it ARMED or RUN (R417). -/
def Dev.ventReady (d : Dev) (k : Nat) : Bool := d.link.acked.testBit k || d.vst k != .safe

/-- An ARMED axis enters RUN. -/
def Dev.enterRun (d : Dev) (k : Nat) : Dev :=
  let d := d.setCst k .run
  let d := d.each (legsOf k) fun l d => d.legEnter l
  let d := d.modAxis k fun a => { a with fr := true, comm := { a.comm with cx0 := none, cx1 := none } }
  (d.putB F.AX_CX_VALID k false).putB (F.AX_CX_VALID.nth 1) k false

/-- RUN entry of every ARMED axis whose Vent state allows it, at the tick. -/
def Dev.runEntries (d : Dev) : Dev :=
  d.each (List.range 8) fun k d => if d.cst k = .armed ∧ d.ventReady k then d.enterRun k else d

end Sys2Proof.Machine
end

