-- ==== Sys2Proof/Machine/Comm.lean ====
section
/-! DEFINITION. Commutation units and start sequencers: angle generator, float windows, crossings, catch, start, brake,
loss (chapters 11 and 12). -/

namespace Sys2Proof.Machine

/-! ### The table of R235 -/

/-- The crossing angle of row `r`, as TURN. -/
def rowAngle (r : Nat) : Nat := r * 2 ^ 32 / 6

/-- The phase of row `r`: 0 U, 1 V, 2 W. -/
def rowPhase (r : Nat) : Nat := [0, 2, 1, 0, 2, 1].getD r 0

/-- The polarity of row `r` in forward rotation: rising in the odd rows. -/
def rowRising (r : Nat) : Bool := r % 2 == 1

/-- The row of a phase and polarity, forward column. -/
def rowOf (phase : Nat) (rising : Bool) : Nat :=
  ((List.range 6).find? fun r => rowPhase r == phase && rowRising r == rising).getD 0

/-- The crossing angle of a valid crossing from its phase, polarity and direction (R244). -/
def crossAngle (phase : Nat) (pol dirx : Bool) : Nat := rowAngle (rowOf phase (pol == dirx))

/-! ### The angle generator (R236) -/

/-- θ_N. -/
def CommUnit.theta (c : CommUnit) : Nat := c.g / 65536 % 2 ^ 32

/-- floor(|RATE| / 2^16). -/
def CommUnit.speed (c : CommUnit) : Nat := c.rate.natAbs / 65536

/-- The signed angle from `c` to θ. -/
def angleDiff (theta c : Nat) : Int := signed 32 ((theta + 2 ^ 32 - c) % 2 ^ 32)

/-! ### Float windows (R238) -/

/-- The row of the window in which θ_N lies, if windows are open for it. -/
def Dev.windowRow (d : Dev) (k : Nat) : Option Nat :=
  let c := d.comm k
  if (c.st = .start ∨ c.st = .track) ∧ c.wen then
    if (d.topo k).drive = 0 then
      (List.range 6).find? fun r => let x := angleDiff c.theta (rowAngle r)
        decide (-(0x15555555 : Int) ≤ x ∧ x < 0x15555555)
    else if d.live F.AX_CTHR_RMIN k * 65536 ≤ c.rate.natAbs then
      let h := d.live F.AX_COMM_FW k * 2 ^ 32 / 720
      (List.range 6).find? fun r => decide ((angleDiff c.theta (rowAngle r)).natAbs ≤ h)
    else none
  else none

/-- θ_N has passed the far edge of a window it has left (R242, R250). -/
def CommUnit.pastFar (c : CommUnit) (r : Nat) : Bool :=
  let x := angleDiff c.theta (rowAngle r)
  if 0 ≤ c.rate then decide (0 < x) else decide (x < 0)

/-- Set or clear the float request of the window's leg. -/
def Dev.windowFloat (d : Dev) (k r : Nat) (on : Bool) : Dev :=
  let l := 3 * k + rowPhase r
  (d.modLeg l fun u => { u with cfloat := on }).reFloat l

/-- A whole-axis float begins: detectors cleared, FBLANK counts from here (R253). -/
def Dev.floatAll (d : Dev) (k : Nat) : Dev :=
  let t := d.clk.now
  let d := d.modComm k fun c => { c with
    allFloat := true, short := false, dets := [], run := [], dir := none, amps := []
    floatAt := [(0, t), (1, t), (2, t)].filter fun p => p.2 != 0 }
  d.reFloatAxis k

/-- A whole-axis float ends. -/
def Dev.floatNone (d : Dev) (k : Nat) : Dev := (d.modComm k fun c => { c with allFloat := false }).reFloatAxis k

/-- The window closes: its float request is released; nothing is counted. -/
def Dev.closeWindow (d : Dev) (k : Nat) : Dev :=
  match (d.comm k).win with
  | none => d
  | some w => (d.modComm k fun c => { c with win := none, det := {} }).windowFloat k w.row false

/-- Every leg of the axis floats in place of the window's leg alone: that leg's float goes on unbroken (R253, R263). -/
def Dev.floatAxis (d : Dev) (k : Nat) : Dev := (d.floatAll k).closeWindow k

/-- Entry to LOST in the core cycle of the miss (R263). -/
def Dev.enterLost (d : Dev) (k : Nat) : Dev :=
  let d := d.modComm k fun c => { c with st := .lost, wen := false, lossBack := decide (c.rate < 0), ticks := 0 }
  (d.floatAxis k).axEvent k 5

/-- A miss (R242): it resets CONSV in START; the LOSSN-th ends a RAMP or enters LOST in TRACK (R257, R263, R267). -/
def Dev.miss (d : Dev) (k : Nat) : Dev :=
  let d := (d.bump F.AX_CCNT_MCNT k).modComm k fun c => { c with missc := min (c.missc + 1) 15, miss := true }
  let c := d.comm k
  if c.st = .start then d.put F.AX_SSTAT_CONSV k 0
  else if c.st = .track ∧ d.live F.AX_SEQT_LOSSN k ≤ c.missc then
    if c.ramp.isSome then d.finishRamp k 4 else d.enterLost k
  else d

/-- Windows are opened and closed on the present angle (R238, R242, R250). -/
def Dev.evalWindow (d : Dev) (k : Nat) : Dev :=
  let c := d.comm k
  let now := d.windowRow k
  let d :=
    match c.win with
    | none => d
    | some w =>
      if now = some w.row then d
      else
        let running := (c.st == .start || c.st == .track) && c.wen &&
          ((d.topo k).drive == 0 || decide (d.live F.AX_CTHR_RMIN k * 65536 ≤ c.rate.natAbs))
        (if running && c.pastFar w.row && !w.got then d.miss k else d).closeWindow k
  match d.windowRow k with
  | none => d
  | some r =>
    if (d.comm k).win.isSome then d
    else (d.modComm k fun c => { c with win := some { row := r }, det := {} }).windowFloat k r true

/-! ### Detection (R240, R241, R253) -/

/-- D of a phase from the latest tapped samples; none before all three phases have one. -/
def CommUnit.diff (c : CommUnit) (f : Nat) : Int :=
  3 * (uget c.taps f).v - ((uget c.taps 0).v + (uget c.taps 1).v + (uget c.taps 2).v)

/-- The three conditions of R240 for evaluating D of phase `f`. -/
def Dev.evaluable (d : Dev) (k f : Nat) : Bool :=
  let c := d.comm k
  let t := fun i => uget c.taps i
  let opens := [(t 0).opened, (t 1).opened, (t 2).opened]
  let closes := [(t 0).closed, (t 1).closed, (t 2).closed]
  let first := opens.foldl min (t f).opened
  let last := closes.foldl max (t f).closed
  let cb := d.live F.AX_COMM_CBLANK k
  let pass := d.get F.ADC_PASS_PASS (2 * (d.topo k).pair)
  c.edges.all (fun e => !(decide (first ≤ e + cb) && decide (e ≤ last))) &&
  decide (uget c.floatAt f + d.live F.AX_COMM_FBLANK k ≤ (t f).opened) &&
  closes.all (fun x => decide ((t f).closed ≤ x + pass)) && closes.all (fun x => decide (0 < x))

/-- One evaluated value: the detector, and the crossing it confirms as polarity and stamp (R241). -/
def Det.step (det : Det) (v : Int) (t : Nat) (thr : Nat) : Det × Option (Bool × Nat) :=
  let big := decide (thr ≤ v.natAbs)
  match det.armed with
  | none => if big then ({ det with armed := some (decide (0 < v)), d1 := v, t1 := t, cand := none }, none) else (det, none)
  | some pos =>
    let opposite := if pos then decide (v ≤ 0) else decide (0 < v)
    if opposite then
      let stamp := det.cand.getD (det.t1 + (t - det.t1) * det.d1.natAbs / (det.d1.natAbs + v.natAbs))
      if big then ({ armed := some (!pos), d1 := v, t1 := t, cand := none }, some (!pos, stamp))
      else ({ det with cand := some stamp }, none)
    else ({ det with d1 := v, t1 := t, cand := none }, none)

/-- A crossing confirmed in an open window is classed (R242). -/
def Dev.classify (d : Dev) (k row : Nat) (rising : Bool) (stamp : Nat) : Dev :=
  let c := d.comm k
  let dirx := decide (0 ≤ c.rate)
  if rising = (rowRising row == dirx) then
    let x : Crossing := { stamp := stamp, phase := rowPhase row, pol := rising, dirx := dirx, seq := (c.seq + 1) % 256 }
    let d := d.modComm k fun c => { c with
      cx0 := some x, cx1 := c.cx0, seq := (c.seq + 1) % 256, ncr := min (c.ncr + 1) 15, missc := 0
      win := c.win.map fun w => { w with got := true } }
    let d := d.bump F.AX_CCNT_VCNT k
    if c.st = .start then d.bump F.AX_SSTAT_CONSV k else d
  else
    let d := (d.bump F.AX_CCNT_ICNT k).modComm k fun c => { c with inv := true }
    if c.st = .start then d.put F.AX_SSTAT_CONSV k 0 else d

/-- A crossing joins the run of a whole-axis float, newest first (R254). -/
def CommUnit.addRun (c : CommUnit) (row stamp : Nat) : CommUnit :=
  match c.run with
  | [] => { c with run := [(row, stamp)], dir := none }
  | p :: _ =>
    let fwd := row == (p.1 + 1) % 6
    let back := p.1 == (row + 1) % 6
    if (fwd && c.dir != some true) || (back && c.dir != some false) then
      { c with run := ((row, stamp) :: c.run).take 7, dir := some back }
    else { c with run := [(row, stamp), p], dir := if fwd then some false else if back then some true else none }

/-- A CMT-tapped sample of phase `f` reaches the commutation unit of axis `k` (R240, R253, R261). -/
def Dev.commSample (d : Dev) (k f : Nat) (v : Int) (opened closed : Nat) : Dev :=
  let d := d.modComm k fun c => { c with taps := uset c.taps f { v := v, opened := opened, closed := closed } }
  let c := d.comm k
  let thr := 3 * d.live F.AX_CTHR_CHYS k
  if c.allFloat then
    let p := max (c.diff 0).natAbs (max (c.diff 1).natAbs (c.diff 2).natAbs)
    let d := d.modComm k fun c => { c with amps := ((closed, p) :: c.amps).filter fun a => decide (closed ≤ a.1 + 200000) }
    if d.evaluable k f then
      let r := (uget c.dets f).step (c.diff f) closed thr
      d.modComm k fun c =>
        let c := { c with dets := uset c.dets f r.1 }
        match r.2 with
        | none => c
        | some x => c.addRun (rowOf f x.1) x.2
    else d
  else match c.win with
    | none => d
    | some w =>
      if rowPhase w.row = f && d.evaluable k f then
        let r := c.det.step (c.diff f) closed thr
        let d := d.modComm k fun c => { c with det := r.1 }
        match r.2 with
        | none => d
        | some x => d.classify k w.row x.1 x.2
      else d

/-! ### Measurement (R255) -/

/-- A measurement of a run at tick `t`. -/
structure Measure where
  n : Nat
  valid : Bool
  back : Bool
  spd : Nat
  rate : Int
  theta : Nat
  deriving DecidableEq, Repr, Inhabited

/-- The evaluation of the last n ≤ 7 crossings of the run (R255). -/
def CommUnit.measure (c : CommUnit) (t : Nat) : Measure :=
  let n := c.run.length
  let tn := (c.run.headD (0, 0)).2
  let t1 := (c.run.getLastD (0, 0)).2
  let dt := tn - t1
  let back := c.dir == some true
  if 3 ≤ n ∧ (t - tn) * (n - 1) < 2 * dt then
    let mag : Int := (((n - 1) * 2 ^ 48 / (6 * dt) : Nat) : Int)
    let rate := if back then -mag else mag
    let ang := rowAngle (c.run.headD (0, 0)).1 + if back then 2 ^ 31 else 0
    { n := n, valid := true, back := back, spd := (n - 1) * 2 ^ 32 / (6 * dt), rate := rate,
      theta := unsigned 32 ((ang : Int) + floorDiv (rate * ((t - tn : Nat) : Int)) 65536) }
  else { n := n, valid := false, back := back, spd := 0, rate := 0, theta := 0 }

/-- AX_CMEAS records a measurement. A speed beyond the field is not stated (log entry 29). -/
def Dev.recordMeasure (d : Dev) (k : Nat) (m : Measure) : Dev :=
  let wide := decide (2 ^ 24 ≤ m.spd)
  let spd := if wide then d.freeNat else m.spd
  let d := if wide then d.tick1 else d
  (((d.put F.AX_CMEAS_SPD k spd).putB F.AX_CMEAS_BACK k m.back).put F.AX_CMEAS_NX k m.n).putB F.AX_CMEAS_VALID k m.valid

/-- The largest amplitude of the last 0.5 ms (R261). -/
def CommUnit.amplitude (c : CommUnit) (t : Nat) : Nat :=
  (c.amps.filter fun a => decide (t ≤ a.1 + 200000)).foldl (fun m a => max m a.2) 0

/-! ### What the tick latches (R243) -/

/-- STATE of AX_CSTAT. -/
def CState.code : CState → Nat
  | .idle => 0
  | .catch_ => 1
  | .start => 2
  | .track => 3
  | .lost => 4
  | .brake => 5
  | .enc => 6

/-- AX_CSTAT's state fields, AX_NANG and AX_NRATE. -/
def Dev.latchState (d : Dev) (k : Nat) : Dev :=
  let c := d.comm k
  let d := (d.put F.AX_CSTAT_STATE k c.st.code).put F.AX_CSTAT_FPH k (match c.win with | none => 3 | some w => rowPhase w.row)
  let d := (d.putB F.AX_CSTAT_WEN k c.wen).putB F.AX_CSTAT_RDIR k (decide (0 ≤ c.rate))
  let d := d.put F.AX_CSTAT_MISSC k c.missc
  (d.put F.AX_NANG_ANG k c.theta).setReg (F.AX_NRATE.at_ k) (wordI c.rate)

/-- One crossing word. -/
def Dev.latchCx (d : Dev) (k i : Nat) (x : Option Crossing) : Dev :=
  match x with
  | none => d
  | some x =>
    let a := fun (f : Fld) => f.nth i
    let d := (d.put (a F.AX_CX_AGE) k (min (d.clk.now - x.stamp) 16777215)).put (a F.AX_CX_PHASE) k x.phase
    let d := (d.putB (a F.AX_CX_POL) k x.pol).putB (a F.AX_CX_VALID) k true
    (d.putB (a F.AX_CX_DIRX) k x.dirx).put (a F.AX_CX_SEQ) k x.seq

/-- The frame's counts and crossings; EV(8k+3) after a frame with an invalid crossing or a miss (R243, R249). -/
def Dev.latchFrame (d : Dev) (k : Nat) : Dev :=
  let c := d.comm k
  let d := ((d.put F.AX_CSTAT_NCR k c.ncr).putB F.AX_CSTAT_INV k c.inv).putB F.AX_CSTAT_MISS k c.miss
  let d := (d.latchCx k 0 c.cx0).latchCx k 1 c.cx1
  (d.modComm k fun c => { c with ncr := 0, inv := false, miss := false }).raiseIf (c.inv || c.miss) (8 * k + 3)

/-! ### The ceiling (R233, R265, R429) -/

/-- I_LIM_EFF of an axis. -/
def Dev.ilimEff (d : Dev) (k : Nat) : Int :=
  floorDiv (((d.gey.s16 * 2 ^ 15 : Nat) : Int) * (d.reg (F.AX_ILIM.at_ k)).toInt) (2 ^ 31)

/-- AX_CEIL: I_LIM_EFF, scaled during a recovery ramp. -/
def Dev.ceilUpdate (d : Dev) (k : Nat) : Dev :=
  let e := d.ilimEff k
  let v := match (d.comm k).recov with
    | none => e
    | some m => floorDiv (e * (m : Int)) (max 1 (d.live F.AX_SEQT_RRAMP k))
  (d.setReg (F.AX_CEIL.at_ k) (wordI v)).putB F.AX_SSTAT_RECOV k (d.comm k).recov.isSome

/-! ### Transitions -/

/-- The start direction's sign. -/
def Dev.startBack (d : Dev) (k : Nat) : Bool := d.live F.AX_SCFG_DIR k == 1

/-- RATE takes a value; one beyond its 40 bits is not stated: a free value (log entry 79). -/
def Dev.setRate (d : Dev) (k : Nat) (x : Int) : Dev :=
  if -(2 ^ 39) ≤ x ∧ x < 2 ^ 39 then d.modComm k fun c => { c with rate := x }
  else (d.modComm k fun c => { c with rate := signed 40 (d.freeNat % 2 ^ 40) }).tick1

/-- START from an angle and a rate (R256, R257). -/
def Dev.enterStart (d : Dev) (k g : Nat) (rate : Int) : Dev :=
  let d := (d.setRate k rate).modComm k fun c => { c with
    st := .start, g := g, wen := true, held := false, ticks := 0, clRuns := 0, short := false, win := none, det := {} }
  ((d.put F.AX_SSTAT_CONSV k 0).floatNone k).latchState k

/-- TRACK by a synchronisation: angle and rate loaded, SYNC, and the recovery ramp begins (R256, R264, R265, R271). -/
def Dev.enterSync (d : Dev) (k : Nat) (m : Measure) : Dev :=
  let d := (d.setRate k m.rate).modComm k fun c => { c with
    st := .track, g := m.theta * 65536, wen := true, recov := some 0, missc := 0, win := none, det := {} }
  let d := ((d.putB F.AX_SSTAT_SYNC k true).floatNone k).axEvent k 5
  (d.ceilUpdate k).latchState k

/-- BRAKE begins, or its next cycle (R260): every leg shorted. -/
def Dev.brakeCycle (d : Dev) (k t : Nat) : Dev :=
  let d := d.modComm k fun c => { c with short := true, cycleAt := t }
  let d := d.each (d.axisLegs k) fun l d => d.shortLeg l
  ((d.floatNone k).each (d.axisLegs k) fun l d => if d.flag F.LEG_STAT_FLOAT l then d else
    if d.flag F.LEG_STAT_OUTEN l then d.command l (8 * d.clk.now) false else d).latchState k

/-- The catch window opens (R253, R255). -/
def Dev.openCatch (d : Dev) (k t : Nat) : Dev :=
  let d := d.modComm k fun c => { c with st := .catch_, wait := false, since := t }
  ((d.putB F.AX_SSTAT_WAIT k false).floatAxis k).latchState k

/-- The catch result (R255, R256), at tick `t`. -/
def Dev.catchResult (d : Dev) (k t : Nat) : Dev :=
  let c := d.comm k
  let m := c.measure t
  let amp := c.amplitude t
  let d := (d.recordMeasure k m).put F.AX_CAMP_AMPC k amp
  let d := d.modComm k fun c => { c with spdC := m.spd }
  let withDir := m.back == d.startBack k
  if !m.valid then (d.put F.AX_SSTAT_CRES k 1).enterStart k 0 0
  else if withDir then
    if d.live F.AX_SCFG_HORATE k ≤ m.spd then (d.put F.AX_SSTAT_CRES k 2).enterSync k m
    else (d.put F.AX_SSTAT_CRES k 3).enterStart k (m.theta * 65536) m.rate
  else if m.spd ≤ d.live F.AX_CATCH_BRKMAX k then (d.put F.AX_SSTAT_CRES k 4).enterStart k 0 0
  else ((d.put F.AX_SSTAT_CRES k 5).modComm k fun c => { c with st := .brake, since := t }).brakeCycle k t

/-- A fault of R270: its latch, EV(8k+5), and the stored stop policy as an "other cause". -/
def Dev.seqFault (d : Dev) (k : Nat) (f : Fld) : Dev := ((d.putB f k true).axEvent k 5).requestStop k

/-- A start attempt fails (R259). -/
def Dev.failAttempt (d : Dev) (k cause : Nat) : Dev :=
  let d := d.put F.AX_SSTAT_FCAUSE k cause
  if d.get F.AX_SSTAT_ATTEMPT k < d.live F.AX_SCFG_RETRY k then
    let d := d.modComm k fun c => { c with st := .catch_, wait := true, since := d.clk.frameStart, wen := false }
    ((d.putB F.AX_SSTAT_WAIT k true).floatAxis k).latchState k
  else d.seqFault k F.AX_SSTAT_SFAIL

/-- The start ramp is held: it has reached HORATE, at this tick or before (R257). -/
def Dev.rampHeld (d : Dev) (k : Nat) : Bool := (d.comm k).held || decide (d.live F.AX_SCFG_HORATE k ≤ (d.comm k).speed)

/-- The cause that fails the attempt at this tick, in the order of R259's table: NOCROSS, CLIM, then PROG. -/
def Dev.failCause (d : Dev) (k : Nat) (prog : Bool) : Nat :=
  let c := d.comm k
  if d.rampHeld k ∧ d.live F.AX_SRAMP_SDWELL k ≤ c.ticks then 1
  else if d.live F.AX_SEQT_SCLN k ≤ c.clRuns ∧ 0 < c.clRuns then 2
  else if prog then 3 else 0

/-- START at a tick: the ramp moves, the hand-over is tested, an SFAIL request acts (R257 to R259, R269). -/
def Dev.startTick (d : Dev) (k : Nat) (prog : Bool) : Dev :=
  let d :=
    if d.rampHeld k then d.modComm k fun c => { c with held := true, ticks := c.ticks + 1 }
    else
      let d := d.setRate k ((d.comm k).rate + (if d.startBack k then -1 else 1) * (d.live F.AX_SRAMP_SACC k : Int))
      d.modComm k fun c => { c with held := d.rampHeld k, ticks := 0 }
  if d.rampHeld k && decide (6 ≤ d.get F.AX_SSTAT_CONSV k) then
    ((d.modComm k fun c => { c with st := .track }).putB F.AX_SSTAT_HO k true).axEvent k 5
  else if prog then d.failAttempt k (d.failCause k prog)
  else d

/-- LOST at a tick: the measurement, which AX_CMEAS records; reacquisition, or a rotor turning against the loss direction
(R255, R264). -/
def Dev.lostTick (d : Dev) (k : Nat) : Dev :=
  let c := d.comm k
  let m := c.measure d.clk.now
  let d := (d.modComm k fun c => { c with ticks := c.ticks + 1 }).recordMeasure k m
  if m.valid then
    if m.back ≠ c.lossBack then d.seqFault k F.AX_SSTAT_OBSLOST
    else if d.live F.AX_SCFG_HORATE k ≤ m.spd then d.enterSync k m
    else d
  else d

/-- The speed of an axis under a RAMP has fallen below its end speed (R267). -/
def Dev.rampSlow (d : Dev) (k : Nat) : Bool :=
  if (d.topo k).drive == 2 then
    let u := (d.topo k).fbk
    d.flag F.FBK_STAT_SPDV u && decide ((d.reg (F.FBK_SPD.at_ u)).toInt.natAbs / 65536 < d.get F.AX_RAMP_ENDSPD k)
  else decide ((d.reg (F.AX_NRATE.at_ k)).toInt.natAbs / 65536 < d.get F.AX_RAMP_ENDSPD k)

/-- TRAMP has passed from the request of a RAMP to the tick (R267). -/
def Dev.rampLate (d : Dev) (k : Nat) : Bool :=
  match (d.comm k).ramp with
  | none => false
  | some t => decide (t + d.get F.AX_RAMP_TRAMP k * 4000000 ≤ d.clk.frameStart)

/-- A RAMP at a tick: the flag, the end speed, and an RDONE request (R266, R267, R269). -/
def Dev.rampTick (d : Dev) (k : Nat) (rdone : Bool) : Dev :=
  if (d.comm k).ramp.isSome then
    let d := d.putB F.AX_SSTAT_RAMP k true
    if d.rampSlow k then d.finishRamp k 1
    else if rdone then d.finishRamp k (if d.rampLate k then 2 else 3)
    else d
  else d

/-- The loads of R237 from the report registers of the completed run. -/
def Dev.observerLoad (d : Dev) (k : Nat) (o : RunOut) : Dev :=
  let a := d.get F.AX_CFG_OBSREP k
  if (d.comm k).st = .track ∧ a < 6 then
    let v := fun i => d.reg (F.AX_REP.at_ k + a + i)
    let has := fun i => o.repMask.testBit (a + i)
    d.modComm k fun c => { c with
      g := if has 0 then (v 0).toNat % 2 ^ 32 * 65536 else c.g
      rate := if has 1 then (v 1).toInt else c.rate
      wen := if has 2 then (v 2).toNat % 2 == 1 else c.wen }
  else d

/-- The recovery ramp advances (R265). -/
def Dev.recovTick (d : Dev) (k : Nat) : Dev :=
  match (d.comm k).recov with
  | none => d
  | some m => d.modComm k fun c => { c with recov := if m + 1 < d.live F.AX_SEQT_RRAMP k then some (m + 1) else none }

/-- CL of the completed run: EV(8k+4) on a fresh clamp, and the count of clamped runs (R249, R259). -/
def Dev.clampTick (d : Dev) (k : Nat) : Dev :=
  match (d.axis k).done with
  | none => d
  | some o =>
    let d := d.raiseIf (o.cl && (d.axis k).lastCl != some true) (8 * k + 4)
    d.modAxis k fun a => { a with lastCl := some o.cl, comm := { a.comm with clRuns := if o.cl then a.comm.clRuns + 1 else 0 } }

/-- The commutation unit and sequencer of a primary axis at the tick, up to the requests of the completed run. -/
def Dev.commTick (d : Dev) (k : Nat) : Dev :=
  let o := ((d.axis k).done).getD {}
  let run := d.cst k == .run
  let d := (d.putB F.AX_SSTAT_HO k false).putB F.AX_SSTAT_SYNC k false
  let d := d.clampTick k
  let d := d.observerLoad k o
  let d := d.recovTick k
  let d := d.ceilUpdate k
  let d := d.latchFrame k
  let d :=
    if !run then d
    else match (d.comm k).st with
      | .idle => if (d.topo k).drive < 2 then (d.put F.AX_SSTAT_ATTEMPT k 0).openCatch k d.clk.now else d
      | .start => d.startTick k (o.sreq.testBit 0)
      | .lost => d.lostTick k
      | _ => d
  let d := d.evalWindow k
  let d := d.latchState k
  let d := d.rampTick k (o.sreq.testBit 1)
  let d := if d.cst k = .run ∧ o.sreq.testBit 2 then d.requestStop k else d
  d.modAxis k fun a => { a with done := none }

/-! ### The sequencer's own steps -/

/-- What the tick has latched, after a step that the tick takes: the angle generator's state, which a stop at the tick
clears (R243, R251), and AX_SSTAT and AX_CMEAS (R268). -/
def Dev.latchSeq (d : Dev) (k : Nat) : Dev :=
  (d.latchState k).modAxis k fun a => { a with sstatTick := d.reg (F.AX_SSTAT.at_ k), cmeasTick := d.reg (F.AX_CMEAS.at_ k) }

/-- CATCH_WINDOW_END (R255). -/
def Dev.catchWindowEnd (d : Dev) (k : Nat) : Dev :=
  let c := d.comm k
  if c.st = .catch_ ∧ !c.wait ∧
      (c.since + d.live F.AX_CATCH_TCATCH k * 400000 ≤ d.clk.frameStart ∨ 7 ≤ c.run.length) then
    ((d.catchResult k d.clk.frameStart).evalWindow k).latchSeq k
  else d

/-- BRAKE_FLOAT_START: 19 ms into a brake cycle every leg floats (R260). -/
def Dev.brakeFloatStart (d : Dev) (k : Nat) : Dev :=
  let c := d.comm k
  if c.st = .brake ∧ c.short ∧ c.cycleAt + 7600000 < d.clk.frameStart + d.len then
    let d := d.advance (c.cycleAt + 7600000 - d.clk.now)
    d.floatAll k
  else d

/-- BRAKE_EVALUATION: SPDB, and START or the next cycle (R261). A quotient by an AMPC of 0, and a SPDB beyond its field,
are not stated (log entry 29). -/
def Dev.brakeEvaluation (d : Dev) (k : Nat) : Dev :=
  let c := d.comm k
  let t := d.clk.frameStart
  if c.st = .brake ∧ c.allFloat ∧ c.cycleAt + 8000000 ≤ t then
    let amp := c.amplitude t
    let ampc := d.get F.AX_CAMP_AMPC k
    let spdb := if ampc = 0 then d.freeNat % 2 ^ 24 else c.spdC * amp / ampc
    let d := if ampc = 0 then d.tick1 else d
    let wide := decide (2 ^ 24 ≤ spdb)
    let shown := if wide then d.freeNat else spdb
    let d := if wide then d.tick1 else d
    let d := (d.put F.AX_CAMP_AMP k amp).put F.AX_CMEAS_SPD k shown
    let d := if spdb ≤ d.live F.AX_CATCH_BRKMAX k then d.enterStart k 0 0 else d.brakeCycle k t
    (d.evalWindow k).latchSeq k
  else d

/-- BRAKE_TIMEOUT at an evaluating tick that did not start the motor (R262). -/
def Dev.brakeTimeout (d : Dev) (k : Nat) : Dev :=
  let c := d.comm k
  if c.st = .brake ∧ c.cycleAt = d.clk.frameStart ∧ c.since < c.cycleAt ∧
      c.since + d.live F.AX_CATCH_TBRK k * 40000000 ≤ d.clk.frameStart then (d.seqFault k F.AX_SSTAT_REVTO).latchSeq k
  else d

/-- START_ATTEMPT_FAIL at a tick in START (R259). -/
def Dev.startAttemptFail (d : Dev) (k : Nat) : Dev :=
  let cause := d.failCause k false
  if (d.comm k).st = .start ∧ 0 < cause then (d.failAttempt k cause).latchSeq k else d

/-- RETRY_DELAY_END: a new catch window for the next attempt (R259). -/
def Dev.retryDelayEnd (d : Dev) (k : Nat) : Dev :=
  let c := d.comm k
  if c.st = .catch_ ∧ c.wait ∧ c.since + d.live F.AX_SCFG_RDLY k * 4000000 ≤ d.clk.frameStart then
    ((d.put F.AX_SSTAT_ATTEMPT k (d.get F.AX_SSTAT_ATTEMPT k + 1)).openCatch k d.clk.frameStart).latchSeq k
  else d

/-- REACQ_TIMEOUT (R264). -/
def Dev.reacqTimeout (d : Dev) (k : Nat) : Dev :=
  let c := d.comm k
  if c.st = .lost ∧ d.live F.AX_SEQT_REACQ k ≤ c.ticks then (d.seqFault k F.AX_SSTAT_OBSLOST).latchSeq k else d

/-- RAMP_TIMEOUT at a tick (R267). -/
def Dev.rampTimeout (d : Dev) (k : Nat) : Dev := if d.rampLate k then (d.finishRamp k 2).latchSeq k else d

/-- WINDOW_EDGE at core cycle `t` of the frame: the windows are evaluated on the angle there (R238). -/
def Dev.windowEdge (d : Dev) (k t : Nat) : Dev :=
  let d := d.at_ t
  if d.primary k then d.evalWindow k else d

/-! ### Meanings -/

/-- WINDOW_EDGE. -/
def execWindowEdge (axis : Fin 8) (t : Nat) (s : State) : Host.Outcome State Fault Refusal :=
  s.lift fun d => d.windowEdge axis t
/-- CATCH_WINDOW_END. -/
def execCatchWindowEnd (axis : Fin 8) (s : State) : Host.Outcome State Fault Refusal := s.lift fun d => d.catchWindowEnd axis
/-- BRAKE_FLOAT_START. -/
def execBrakeFloatStart (axis : Fin 8) (s : State) : Host.Outcome State Fault Refusal := s.lift fun d => d.brakeFloatStart axis
/-- BRAKE_EVALUATION. -/
def execBrakeEvaluation (axis : Fin 8) (s : State) : Host.Outcome State Fault Refusal := s.lift fun d => d.brakeEvaluation axis
/-- BRAKE_TIMEOUT. -/
def execBrakeTimeout (axis : Fin 8) (s : State) : Host.Outcome State Fault Refusal := s.lift fun d => d.brakeTimeout axis
/-- START_ATTEMPT_FAIL. -/
def execStartAttemptFail (axis : Fin 8) (s : State) : Host.Outcome State Fault Refusal := s.lift fun d => d.startAttemptFail axis
/-- RETRY_DELAY_END. -/
def execRetryDelayEnd (axis : Fin 8) (s : State) : Host.Outcome State Fault Refusal := s.lift fun d => d.retryDelayEnd axis
/-- REACQ_TIMEOUT. -/
def execReacqTimeout (axis : Fin 8) (s : State) : Host.Outcome State Fault Refusal := s.lift fun d => d.reacqTimeout axis
/-- RAMP_TIMEOUT. -/
def execRampTimeout (axis : Fin 8) (s : State) : Host.Outcome State Fault Refusal := s.lift fun d => d.rampTimeout axis

end Sys2Proof.Machine
end

