-- ==== Sys2Proof/Machine/JnlCore.lean ====
section
/-! DEFINITION. Journal bookkeeping that other blocks use: status records, acknowledgements, completions, pending
operations, and the warden's arming exchanges (R293, R296, R305 to R308, R313, R404, R418). -/

namespace Sys2Proof.Machine

/-! ### Statuses (R309) -/
namespace St
def accepted : Nat := 0x00
def done : Nat := 0x01
def late : Nat := 0x02
def partial_ : Nat := 0x03
def aborted : Nat := 0x04
def reset : Nat := 0x05
def unknownSrc : Nat := 0x10
def gap : Nat := 0x11
def busy : Nat := 0x12
def auth : Nat := 0x13
def format : Nat := 0x14
def noslot : Nat := 0x15
def stale : Nat := 0x16
def batch : Nat := 0x17
def toobig : Nat := 0x18
def halted : Nat := 0x19
def range : Nat := 0x20
def access : Nat := 0x21
def refused : Nat := 0x22
def notarget : Nat := 0x23
def full : Nat := 0x24
def fail : Nat := 0x25
end St

/-! ### Sources (R298, R303) -/

/-- The slot of a registered source. -/
def Journal.slotOf (j : Journal) (src : Nat) : Option Nat :=
  (List.range 64).find? fun i => match uget j.sources i with
    | none => false
    | some x => x.src == src

/-- A registered source. -/
def Journal.source (j : Journal) (src : Nat) : Option Source :=
  match j.slotOf src with
  | none => none
  | some i => uget j.sources i

/-- A registered source updated. -/
def Journal.modSource (j : Journal) (src : Nat) (f : Source → Source) : Journal :=
  match j.slotOf src with
  | none => j
  | some i => { j with sources := uset j.sources i ((uget j.sources i).map f) }

/-- The status record of a sequence, if the source holds one. -/
def Source.record (x : Source) (seq : Nat) : Option Status :=
  let r := uget x.recs (seq % 256)
  if r.code ≠ 0 ∧ r.seq = seq then some r else none

/-- Write a status record; a newer command's record is not overwritten. -/
def Source.setRecord (x : Source) (seq code st : Nat) : Source :=
  let r := uget x.recs (seq % 256)
  if r.code = 0 ∨ r.seq = seq then { x with recs := uset x.recs (seq % 256) { seq := seq, code := code, st := st } } else x

/-- The number of registered sources. -/
def Journal.srcCount (j : Journal) : Nat := ((List.range 64).filter fun i => (uget j.sources i).isSome).length

/-! ### Retained words (R302 to R304, R312) -/

/-- The banks of the copies in use. -/
def Journal.banks (j : Journal) : List Nat := match j.mirror with
  | 0 => [14, 15]
  | 1 => [15]
  | 2 => [14]
  | _ => []

/-- What the retention domain holds of the journal (R303, R411). -/
def Journal.retained (j : Journal) : Retained :=
  { entries := j.entries, head := j.head, sources := j.sources, ops := j.ops, axisRec := j.axisRec, params := j.params
    clr := j.clr }

/-- The journal engine reserves the banks of its copies, with the words that wait (R304). -/
def Dev.jnlReserve (d : Dev) : Dev :=
  let now := d.jnl.unwritten.take 64
  (d.modJnl fun j => { j with unwritten := j.unwritten.drop 64, undo := some (j.undo.getD j.retained) }).reserve 10 d.jnl.banks now

/-- One word of a copy: staged in the reservation of the journal engine, or waiting for its next one where there is none or it
has staged 64 others (R332). -/
def Dev.jnlStage (d : Dev) (p : Nat × Word) : Dev :=
  let staged := ((d.resvOf 10).map Resv.staged).getD []
  if (d.resvOf 10).isSome && (decide (staged.length < 64) || (decide (staged.length = 64) && staged.any fun x => x.1 == p.1)) then
    (d.stage 10 [p]).modJnl fun j => { j with unwritten := j.unwritten.filter fun x => x.1 != p.1 }
  else d.modJnl fun j => { j with unwritten := mergeWords j.unwritten [p] }

/-- Words of the copies are written in a reservation of the journal engine: in the one it has, or in one that it requests (R329,
R333; log entry 31). A reset that finds it open leaves the journal as it was `before`. -/
def Dev.jnlWrite (d : Dev) (before : Journal) (all : List (Nat × Word)) : Dev :=
  if all = [] then d
  else
    let d := all.foldl Dev.jnlStage (d.modJnl fun j => { j with undo := some (j.undo.getD before.retained) })
    if (d.resvOf 10).isSome then d else d.jnlReserve

/-- Retained words are written to the copies in use. -/
def Dev.jnlPut (d : Dev) (before : Journal) (ws : List (Nat × Word)) : Dev :=
  d.jnlWrite before (ws.flatMap fun p => d.jnl.banks.map fun b => (calAddr b p.1, p.2))

/-- The words of two states of a record that differ, from word `a` on. -/
def wordDelta (a : Nat) (old new : List Word) : List (Nat × Word) :=
  ((List.range new.length).filter fun i => old.getD i 0 != new.getD i 0).map fun i => (a + i, new.getD i 0)

/-- The five status bytes of word `i` of a source slot, by SEQ[7:0]: bit 7 and the status, 0 where no record stands. -/
def Source.statusWord (x : Source) (i : Nat) : Word :=
  wordN (leNat (tabulate 5 fun j =>
    let r := uget x.recs (5 * i + j)
    if 5 * i + j < 256 ∧ r.code ≠ 0 then BitVec.ofNat 8 (0x80 + r.st) else 0#8))

/-- The 56 words of a source slot (R303): state, path, last activity and 256 status bytes; a free slot holds 0. -/
def slotWords56 (fcnt : Nat) : Option Source → List Word
  | none => List.replicate 56 0
  | some x => [wordN (x.src + x.last * 2 ^ 8 + b2n x.auth * 2 ^ 32 + 2 ^ 33), wordN x.path, wordN (fcnt - x.idle), 0] ++
      tabulate 52 x.statusWord

/-- The sources change, and the words of their slots with them. -/
def Dev.setSources (d : Dev) (new : List (Nat × Option Source)) : Dev :=
  let old := d.jnl.sources
  let f := d.get F.GEY_FCNT 0
  (d.modJnl fun j => { j with sources := new }).jnlPut d.jnl ((List.range 64).flatMap fun i =>
    if uget old i = uget new i then [] else wordDelta (0x1000 + 56 * i) (slotWords56 f (uget old i)) (slotWords56 f (uget new i)))

/-- A registered source updated, with its words. -/
def Dev.modSource (d : Dev) (src : Nat) (f : Source → Source) : Dev := d.setSources (d.jnl.modSource src f).sources

/-! ### Records (R293, R296) -/

/-- A record enters the acknowledgement FIFO; a record that finds it full is lost. -/
def Dev.pushAck (d : Dev) (a : Ack) : Dev :=
  if d.jnl.fifo.length < 64 then
    (d.modJnl fun j => { j with fifo := j.fifo ++ [a] }).put F.JNL_AFIFO_COUNT 0 (d.jnl.fifo.length + 1)
  else ((d.putB F.JNL_AFIFO_OVF 0 true).bump F.JNL_AFIFO_LOST 0).raise 111

/-- A record joins the newest reply frame of its source, in a queue given newest first: one in FD format of the same kind
that has not been released and holds fewer than eight records (R296). -/
def joinReply (a : Ack) (brs : Bool) : List Reply → Option (List Reply)
  | [] => none
  | r :: rs =>
    if r.src = a.src then
      if !r.due && r.fd && r.brs == brs && decide (r.recs.length < 8) then
        some ({ r with recs := r.recs ++ [(a.seq, a.st, a.data)] } :: rs)
      else none
    else (joinReply a brs rs).map (r :: ·)

/-- A record enters the reply queue of a controller, in a frame of its source or in one of its own; a frame that finds 32 in
the queue is lost (R348). -/
def Dev.queueReply (d : Dev) (c : Nat) (a : Ack) : Dev :=
  let u := d.ctl c
  let fmt := uget u.srcFmt a.src
  let fd := fmt.1 && d.flag F.CAN_CTL_FDEN c
  let brs := fd && fmt.2.1
  match if fd then joinReply a brs u.replies.reverse else none with
  | some rs => d.modCtl c fun u => { u with replies := rs.reverse }
  | none =>
    if u.replies.length < 32 then
      d.modCtl c fun u => { u with
        replies := u.replies ++ [{ src := a.src, fd := fd, brs := brs, prio := fmt.2.2, recs := [(a.seq, a.st, a.data)] }] }
    else (d.bump F.CAN_CNT2_RPLLOST c).raise (67 + 4 * c)

/-- A record goes to a path: the host port's FIFO, or the reply queue of a controller; one for a bus-off controller is
discarded (R296). -/
def Dev.sendRecord (d : Dev) (path : Nat) (a : Ack) : Dev :=
  if path = 0 then d.pushAck a
  else if d.get F.CAN_STAT_STATE ((path - 1) % 4) = 2 then d
  else d.queueReply ((path - 1) % 4) a

/-- The path of a source (R302). -/
def Dev.pathOf (d : Dev) (src : Nat) : Nat := match d.jnl.source src with
  | none => 0
  | some x => x.path

/-- A completion: the status record always; a record to the source's path when it is wanted or not DONE (R308). -/
def Dev.complete (d : Dev) (src seq code st data : Nat) (reqDone : Bool) : Dev :=
  let path := d.pathOf src
  let d := d.modSource src fun x => x.setRecord seq code st
  if reqDone || st != St.done then d.sendRecord path { src := src, seq := seq, st := st, data := data, code := code } else d

/-! ### Pending operations (R305) -/

/-- The pending operation of an axis. -/
def Journal.opOf (j : Journal) (k : Nat) : Option PendOp := j.ops.find? fun o => o.mask.testBit k

/-- AX_CMD of every axis follows the pending operations. -/
def Dev.showOps (d : Dev) : Dev :=
  d.each (List.range 8) fun k d => match d.jnl.opOf k with
    | none => d.setReg (F.AX_CMD_SOURCE.at_ k) 0
    | some o => (((d.put F.AX_CMD_SOURCE k o.src).put F.AX_CMD_SEQ k o.seq).put F.AX_CMD_KIND k (if o.start then 1 else 2)).putB
        F.AX_CMD_REQDONE k o.reqDone

/-- The words of an axis record that hold its pending operation (R303): what AX_CMD shows, and its mask. -/
def Journal.opWords (j : Journal) (k : Nat) : List Word := match j.opOf k with
  | none => [0, 0]
  | some o => [wordN (o.src + o.seq * 2 ^ 8 + (if o.start then 1 else 2) * 2 ^ 32 + b2n o.reqDone * 2 ^ 34), wordN o.mask]

/-- The pending operations change: AX_CMD and the retained words follow. -/
def Dev.setOps (d : Dev) (ops : List PendOp) : Dev :=
  let old := d.jnl
  let d := (d.modJnl fun j => { j with ops := ops }).showOps
  d.jnlPut old ((List.range 8).flatMap fun k => wordDelta (0x1E04 + 8 * k) (old.opWords k) (d.jnl.opWords k))

/-- A pending operation begins. -/
def Dev.addOp (d : Dev) (o : PendOp) : Dev := d.setOps (d.jnl.ops ++ [o])

/-- A pending operation completes. -/
def Dev.endOp (d : Dev) (o : PendOp) (st : Nat) : Dev :=
  let d := d.setOps (d.jnl.ops.filter fun x => x ≠ o)
  d.complete o.src o.seq (if o.start then 4 else 5) st 0 o.reqDone

/-- The axes that an operation on a mask reaches: each named axis with its ganged partner (R42). -/
def Dev.maskAxes (d : Dev) (mask : Nat) : List Nat := (bitsOf 8 mask).flatMap d.gang

/-! ### Arming (R117, R404, R418) -/

/-- An axis holds a fault of R115 in a control-die copy (R117). -/
def Dev.copyFaulted (d : Dev) (k : Nat) : Bool :=
  [F.VNT_AFLT_TRIP, F.VNT_AFLT_LINK, F.VNT_AFLT_TSD].any (fun f => d.flag (f.nth k)) ||
  (legsOf k).any fun l => [F.LEG_FLT_VDSH, F.LEG_FLT_VDSL, F.LEG_FLT_BSTUV, F.LEG_FLT_XLOCKF].any fun f => d.flag f l

/-- An axis holds a fault on either die. -/
def Dev.axisFaulted (d : Dev) (k : Nat) : Bool := d.copyFaulted k || d.vent.faulted k

/-- A current accumulator of the axis lacks HIEN or LOEN (R153). -/
def Dev.tripUnset (d : Dev) (k : Nat) : Bool :=
  (List.range 16).any fun b => (List.range (d.seqLen b)).any fun e =>
    decide (10 * k ≤ d.entry F.ADC_SEQ_CH b e ∧ d.entry F.ADC_SEQ_CH b e < 10 * k + 3) &&
    !(d.flag F.ACC_TRIP_HIEN (16 * d.seqBank b + d.entry F.ADC_SEQ_DEST b e) &&
      d.flag F.ACC_TRIP_LOEN (16 * d.seqBank b + d.entry F.ADC_SEQ_DEST b e))

/-- Why the warden refuses to arm an axis, 0 for none (R404). A fault counts on either die and on the partner (R117). -/
def Dev.armReason (d : Dev) (k : Nat) : Nat :=
  if d.get F.SYS_IMGSTAT_STATE ≠ 1 then 1
  else if d.flag F.WDN_STAT_RESTR then 2
  else if (d.gang k).any d.axisFaulted then 3
  else if !d.flag F.ADC_STAT_REFOK (2 * (d.topo k).pair) then 4
  else if d.tripUnset k then 5
  else if d.primary k && (match d.engineOf k with
    | none => false
    | some e => d.get F.ENG_OVR_CONSEC e != 0) then 6
  else if d.flag F.AX_SSTAT_SFAIL k || d.flag F.AX_SSTAT_REVTO k || d.flag F.AX_SSTAT_OBSLOST k then 7
  else if d.stranded k then 8
  else if d.bit F.WDN_ESC_BLOCK 0 k then 9
  else if !d.flag F.VNT_STAT_CFGOK then 10
  else 0

/-- WDN_ARMREF takes a refusal (R404). -/
def Dev.armRefused (d : Dev) (k : Nat) : Dev :=
  ((d.put F.WDN_ARMREF_REASON 0 (d.armReason k)).put F.WDN_ARMREF_AXIS 0 k).bump F.WDN_ARMREF_COUNT 0

/-- The pending START that names an axis or its partner. -/
def Dev.startOf (d : Dev) (k : Nat) : Option PendOp :=
  d.jnl.ops.find? fun o => o.start && (d.maskAxes o.mask).contains k

/-- The axes of an operation leave the warden's list of axes to arm. -/
def Dev.dropArming (d : Dev) (axes : List Nat) : Dev :=
  d.modJnl fun j => { j with toArm := j.toArm.filter fun k => !axes.contains k }

/-- A START fails because an exchange failed or was refused: its ARMED axes are lowered with NONE, those in RUN are asked
for the stored policy (R418). -/
def Dev.failStart (d : Dev) (o : PendOp) (st : Nat) : Dev :=
  let axes := d.maskAxes o.mask
  let d := d.dropArming axes
  let d := d.each axes fun k d =>
    match d.cst k with
    | .safe => d
    | .armed => d.lowerWith k .none
    | .run => d.requestStop k
  d.endOp o st

/-- The open-wire pulls of an axis off (R143). -/
def Dev.pullsOff (d : Dev) (k : Nat) : Dev := d.each (List.range 10) fun i d => d.put F.COR_DIAG_PULL (10 * k + i) 0

/-- The warden turns to the next axis of its list, `n` of them at most: it runs the checks of R404 again and starts the
exchange, or refuses the START with its other axes (R404, R418; log entry 78). -/
def Dev.armFrom (d : Dev) : Nat → Dev
  | 0 => d
  | n + 1 => match d.jnl.toArm with
    | [] => d
    | k :: rest =>
      let d := d.modJnl fun j => { j with toArm := rest }
      if d.armReason k = 0 then
        let n1 := (Config.nonce1 d.free).toNat
        (d.modLink fun l => { l with arm := some { axis := Fin.ofNat 8 k, n1 := n1 } }).tick1.put F.DIE_ARM_AXIS 0 k
      else
        let d := d.armRefused k
        (match d.startOf k with
          | none => d
          | some o => d.failStart o St.refused).armFrom n

/-- The warden starts the next exchange, one at a time. -/
def Dev.armNext (d : Dev) : Dev := if d.link.arm.isSome || d.wdn.stopped then d else d.armFrom d.jnl.toArm.length

/-- The Vent die closes an axis's challenge. -/
def Dev.closeChallenge (d : Dev) (k : Nat) : Dev := d.modVent fun v => v.modAxis k fun a => { a with chal := none }

/-- An exchange ends without success: DIE_ARM, and the challenge closes. -/
def Dev.exchangeEnd (d : Dev) (result vreason : Nat) : Dev :=
  match d.link.arm with
  | none => d
  | some x =>
    let d := (d.put F.DIE_ARM_RESULT 0 result).put F.DIE_ARM_VREASON 0 vreason
    (d.modLink fun l => { l with arm := none }).closeChallenge x.axis.val

/-- The warden abandons the arming of every axis of an operation that is not in RUN, an exchange in progress included;
ARMED axes are lowered with action NONE (R305, R307). -/
def Dev.abandon (d : Dev) (o : PendOp) (st : Nat) : Dev :=
  let axes := d.maskAxes o.mask
  let d := d.dropArming axes
  let d := match d.link.arm with
    | none => d
    | some x => if axes.contains x.axis.val then d.exchangeEnd 5 0 else d
  let d := d.each axes fun k d => if d.cst k = .armed then d.lowerWith k .none else d
  (d.endOp o st).armNext

/-- The exchange in progress fails: the START that asked for it completes FAIL (R418). -/
def Dev.armFail (d : Dev) (result vreason : Nat) : Dev :=
  match d.link.arm with
  | none => d
  | some x =>
    let d := d.exchangeEnd result vreason
    let d := match d.startOf x.axis.val with
      | none => d
      | some o => d.failStart o St.fail
    d.armNext

/-- A pending START of an axis that was lowered completes FAIL, and the arming of its other axes is abandoned (R313,
R423). -/
def Dev.failPending (d : Dev) (k : Nat) : Dev :=
  match d.startOf k with
  | none => d
  | some o => d.abandon o St.fail

/-- Pending operations at the tick: a START completes when its last axis has entered RUN, a STOP when none of its axes is
in RUN (R305, R306). -/
def Dev.opsTick (d : Dev) : Dev :=
  d.jnl.ops.foldl (fun d o =>
    let axes := d.maskAxes o.mask
    if o.start then if axes.all fun k => d.cst k == .run then d.endOp o St.done else d
    else if axes.all fun k => d.cst k != .run then d.endOp o St.done else d) d

end Sys2Proof.Machine
end

