-- ==== Sys2Proof/WellFormed.lean ====
section
/-! DEFINITION. Well-formed commands: a received CAN frame is one that ISO 11898-1 allows on the bus. Every other operand is
bounded by its type. A meaning faults with `illFormed` on any other operand. -/

namespace Sys2Proof

/-- The number of data bytes that a DLC stands for (R343). -/
def dlcBytes (fdf : Bool) (dlc : Nat) : Nat :=
  if dlc ≤ 8 then dlc else if !fdf then 8
  else [12, 16, 20, 24, 32, 48, 64].getD (dlc - 9) 64

/-- A frame that ISO 11898-1 allows on the bus (R337, R340): no remote FD frame, BRS and ESI only in FD frames, as many
data bytes as the DLC says, a base identifier of 11 bits. -/
def CanFrame.wf (f : CanFrame) : Bool :=
  decide (f.data.length = (if f.rtr then 0 else dlcBytes f.fdf f.dlc.toNat)) &&
  (f.xtd || decide (f.id.toNat < 2048)) && !(f.fdf && f.rtr) && (f.fdf || !(f.brs || f.esi))

/-- The ranges of a command's operands. -/
def Instr.wf : Instr → Bool
  | .canFrameRx _ f => f.wf
  | _ => true

end Sys2Proof
end

