-- ==== Sys2Proof/Machine/Regfile.lean ====
section
/-! DEFINITION. What a read of a register returns, and how a write of one is judged (R7 to R12, R50, R433, R435, R467);
pins and vectors of the event controller (R375 to R377); received CAN elements as words (R354). -/

namespace Sys2Proof.Machine

/-! ### Writes judged field by field (R9, R50, R467) -/

/-- The range entry of a LIVE field. -/
def Dev.rangeOf (d : Dev) (a lo width : Nat) : Option Range :=
  d.img.cur.ranges.find? fun r => r.addr == a && r.lsb == lo && r.width == width

/-- A value lies within a range, in the field's width and the entry's comparison (R49). -/
def Range.holds (r : Range) (v : Nat) : Bool :=
  if r.sgn then decide (signed r.width r.min.toNat ≤ signed r.width v ∧ signed r.width v ≤ signed r.width r.max.toNat)
  else decide (r.min.toNat ≤ v ∧ v ≤ r.max.toNat)

/-- A field that is read-only in this instance of its register: MODE and REFSEL of an odd bank (R129), CON_MAP10 to
CON_MAP12, HALT of C3 (R358). -/
def readOnlyHere (a lo : Nat) : Bool :=
  decide (0x0C00 ≤ a ∧ a < 0x1000 ∧ a % 128 = 0x50 ∧ 6 ≤ lo) || decide (0x1B1A ≤ a ∧ a ≤ 0x1B1C) || (a == 0x1D80 && lo == 13)

/-- The fields of a register; none for an address that holds none. -/
def fieldsAt (a : Nat) : List FAcc := match regRow a with
  | none => []
  | some r => r.fields.map fun f => if readOnlyHere a f.lo then { f with acc := .ro } else f

/-- The new value of one field, or a refusal of the whole write. Before the seal, SEAL and LIVE fields are open. -/
def Dev.judgeField (d : Dev) (m : Master) (a : Nat) (f : FAcc) (old new : Nat) : Option Nat :=
  match f.acc with
  | .rw => some new
  | .ro => some old
  | .w1c => some (old - (old &&& new))
  | .wo => some 0
  | .rws => some (old ||| new)
  | .seal => if d.sys.sealed ∧ new ≠ old then none else some new
  | .wdn => if m = .warden ∨ new = old then some new else none
  | .wdnWo => if m = .warden ∨ new = 0 then some 0 else none
  | .live =>
    if !d.sys.sealed then some new
    else match d.rangeOf a f.lo f.width with
      | none => if new = old then some new else none
      | some r => if r.holds new then some new else none

/-- The filter word that an address of a CAN block names: its controller, and 0 for CODE, 1 for MASK (R349). -/
def filterWord (a : Nat) : Option (Nat × Nat) :=
  if 0x1C00 ≤ a ∧ a < 0x1E00 ∧ (a % 128 = 0x0B ∨ a % 128 = 0x0C) then some ((a - 0x1C00) / 128, a % 128 - 0x0B) else none

/-- The filter that CAN_FSEL of a controller names: its CODE and MASK words (R349). -/
def Dev.filterAt (d : Dev) (c : Nat) : Word × Word := uget (d.ctl c).filters (d.get F.CAN_FSEL_INDEX c)

/-- The word against which a write is judged: CAN_FCODE and CAN_FMASK hold those of the selected filter. -/
def Dev.present (d : Dev) (a : Nat) : Word := match filterWord a with
  | some (c, part) => if part = 0 then (d.filterAt c).1 else (d.filterAt c).2
  | none => d.reg a

/-- The word that a write leaves in a register, or a refusal. -/
def Dev.judge (d : Dev) (m : Master) (a : Nat) (w : Word) : Option Word :=
  (fieldsAt a).foldl (fun acc f => match acc with
    | none => none
    | some x => match d.judgeField m a f (fget (d.present a) f.lo f.width) (fget w f.lo f.width) with
      | none => none
      | some v => some (fput x f.lo f.width v)) (some 0#40)

/-- Registers that accept P32: the current ceiling and the torque and speed setpoints of an axis (R3, R233). -/
def isP32 (a : Nat) : Bool := decide (0x400 ≤ a ∧ a < 0x800) && (a % 128 == 0x01 || a % 128 == 0x11 || a % 128 == 0x12)

/-- A word as its register takes it: P32 outside the legal range is clamped (R3). -/
def regTake (a : Nat) (w : Word) : Word := if isP32 a then wordI (satP32 w.toInt) else w

/-- The register holds a LIVE field. -/
def hasLive (a : Nat) : Bool := (fieldsAt a).any fun f => f.acc == .live

/-- The LIVE fields of a register take a word's values, each checked under R50; other bits are ignored. -/
def Dev.judgeLive (d : Dev) (a : Nat) (w : Word) : Option Word :=
  (fieldsAt a).foldl (fun acc f => match acc with
    | none => none
    | some x =>
      if f.acc = .live then
        match d.judgeField .journal a f (fget (d.reg a) f.lo f.width) (fget w f.lo f.width) with
        | none => none
        | some v => some (fput x f.lo f.width v)
      else some x) (some (d.reg a))

/-! ### Event pins (R375 to R377) -/

/-- Event `n` keeps a pin low. -/
def Dev.eventOn (d : Dev) (n : Nat) : Bool :=
  d.bit F.EVT_STAT (n / 32) (n % 32) && d.bit F.EVT_EN (n / 32) (n % 32) && !d.bit F.EVT_WRT (n / 32) (n % 32)

/-- The pin of event `n`. -/
def Dev.eventPin (d : Dev) (n : Nat) : Nat := fget (d.reg (F.EVT_ROUTE.at_ (n / 8))) (2 * (n % 8)) 2

/-- The lowest event that keeps a pin low. -/
def Dev.vector (d : Dev) (x : Nat) : Option Nat := (List.range 128).find? fun n => d.eventOn n && d.eventPin n == x

/-- A pin is pulled low. -/
def Dev.irqLow (d : Dev) (x : Nat) : Bool := (d.vector x).isSome

/-! ### Received elements (R354) -/

/-- The number of data bytes of a frame. -/
def frameLen (f : CanFrame) : Nat := dlcBytes f.fdf f.dlc.toNat

/-- One word of an element. -/
def CanElem.word (e : CanElem) (i : Nat) : Word :=
  let f := e.frame
  if i = 0 then
    wordN (f.id.toNat + b2n f.xtd * 2 ^ 29 + b2n f.fdf * 2 ^ 30 + b2n f.brs * 2 ^ 31 + b2n f.esi * 2 ^ 32 + 2 ^ 33)
  else if i = 1 then wordN (f.dlc.toNat + frameLen f * 2 ^ 4 + e.filter * 2 ^ 11)
  else if i = 15 then f.stamp
  else wordN (leNat (((f.data.take (frameLen f)).drop (5 * (i - 2))).take 5))

/-- One word of a window: that of its element, 0 without one. -/
def Dev.windowWord (d : Dev) (c : Nat) (off : Nat) : Word :=
  let u := d.ctl c
  let e := if off < 16 then u.prb else if d.flag F.CAN_DMA_EN c then none else u.fifo.head?
  match e with
  | none => 0
  | some e => e.word (off % 16)

/-! ### Reads (R7, R83, R247, R435) -/

/-- Where a read of a parallel secondary's mirrored register goes: to the primary's (R83, R247). -/
def Dev.mirrored (d : Dev) (a : Nat) : Nat :=
  if 0x800 ≤ a ∧ a < 0xB00 ∧ 2 ≤ a % 32 ∧ a % 32 ≤ 4 ∧ d.parSec ((a - 0x800) / 32 / 3) then a - 96
  else if 0x400 ≤ a ∧ a < 0x800 ∧ 2 ≤ a % 128 ∧ a % 128 ≤ 10 ∧ d.parSec ((a - 0x400) / 128) then a - 128
  else a

/-- GEY_NOW (R62). -/
def Dev.readNow (d : Dev) : Word :=
  if !d.clk.ticked then 0
  else
    let next := (List.range 32).find? fun s =>
      fget (d.reg (F.GEY_ASLOT.at_ s)) 16 4 != 0 && !d.gey.started.testBit s
    wordN (d.cycle % 2 ^ 16 + next.getD 0 * 2 ^ 16 + b2n next.isNone * 2 ^ 21)

/-- JNL_STAT. -/
def Dev.readJnlStat (d : Dev) : Word :=
  wordN (d.jnl.entries.length + d.jnl.srcCount * 2 ^ 11 + d.jnl.mirror * 2 ^ 18 + d.jnl.params.length * 2 ^ 20)

/-- A source has an unexecuted entry or a pending operation (R300). -/
def Journal.busy (j : Journal) (src : Nat) : Bool :=
  (j.entries.any fun e => e.src == src) || j.ops.any fun o => o.src == src

/-- JNL_SRCn. -/
def Dev.readSource (d : Dev) (i : Nat) : Word := match uget d.jnl.sources i with
  | none => 0
  | some x => wordN (x.src + x.last * 2 ^ 8 + 2 ^ 32 + b2n x.auth * 2 ^ 33 + x.path * 2 ^ 34 + b2n (d.jnl.busy x.src) * 2 ^ 37)

/-- JNL_ACK: the oldest record, or EMPTY (R293). -/
def Dev.readAck (d : Dev) : Word := match d.jnl.fifo with
  | [] => 0xFF00000000#40
  | a :: _ => wordN (a.src + a.seq * 2 ^ 8 + a.st * 2 ^ 32)

/-- A pin is pulled low: by its control cell under EXTEST and CLAMP, never under HIGHZ (R458, R459). -/
def Dev.irqDriven (d : Dev) (x : Nat) : Bool := match d.tap.instr with
  | .extest => d.tap.latch.getLsbD (82 - 2 * x)
  | .clamp => d.tap.latch.getLsbD (82 - 2 * x)
  | .highz => false
  | _ => d.irqLow x

/-- EVT_PIN: what the part drives, and what it senses. -/
def Dev.readPins (d : Dev) : Word :=
  let ext := (Config.irqExternal d.clk.now).toNat
  wordN ((List.range 4).foldl (fun n x =>
    n + b2n (d.irqDriven x) * 2 ^ x + b2n (d.irqDriven x || ext.testBit x) * 2 ^ (x + 4)) 0)

/-- CAN_RXSTAT. -/
def Dev.readRxstat (d : Dev) (c : Nat) : Word :=
  let u := d.ctl c
  wordN (u.fifo.length + fget (d.reg (F.CAN_RXSTAT.at_ c)) 6 1 * 2 ^ 6 + b2n u.prb.isSome * 2 ^ 7 +
    fget (d.reg (F.CAN_RXSTAT.at_ c)) 8 1 * 2 ^ 8 + b2n u.hold.isSome * 2 ^ 9)

/-- A register of a CAN block. -/
def Dev.readCan (d : Dev) (c off : Nat) : Word :=
  let raw := d.reg (0x1C00 + 128 * c + off)
  let filter := d.filterAt c
  if off = 0x07 then fput raw 24 6 (d.ctl c).replies.length
  else if off = 0x08 then wordN d.timeBase
  else if off = 0x0B then filter.1
  else if off = 0x0C then filter.2
  else if off = 0x0F then d.readRxstat c
  else if 0x40 ≤ off ∧ off < 0x60 then d.windowWord c (off - 0x40)
  else raw

/-- The word that a read of a register returns; nothing changes. -/
def Dev.readReg (d : Dev) (a : Nat) : Word :=
  if a = 0x0103 then d.readNow
  else if 0x0220 ≤ a ∧ a < 0x0224 then
    match d.vector (a - 0x0220) with
    | none => 0
    | some n => wordN (n + 128)
  else if a = 0x0224 then d.readPins
  else if 0x1C00 ≤ a ∧ a < 0x1E00 then d.readCan ((a - 0x1C00) / 128) (a % 128)
  else if a = 0x1E01 then d.readJnlStat
  else if a = 0x1E05 then d.readAck
  else if 0x1E80 ≤ a ∧ a < 0x1EC0 then d.readSource (a - 0x1E80)
  else if 0x0C00 ≤ a ∧ a < 0x1000 ∧ a % 128 = 0x50 then fput (d.reg a) 6 4 (fget (d.reg (a - 64)) 6 4)
  else d.reg (d.mirrored a)

end Sys2Proof.Machine
end

