-- ==== Sys2Proof/Machine/Crypto.lean ====
section
/-! DEFINITION. AES-128 and its CMAC (R297, R386), SHA-256 and ECDSA over P-256 (R52, R53), and CRC-32 (R33, R36) over
lists of bytes, as the standards that the manual names lay them down. -/

namespace Sys2Proof.Machine

/-! ### AES-128 -/

def aesRow0 : List Nat := [99, 124, 119, 123, 242, 107, 111, 197, 48, 1, 103, 43, 254, 215, 171, 118]
def aesRow1 : List Nat := [202, 130, 201, 125, 250, 89, 71, 240, 173, 212, 162, 175, 156, 164, 114, 192]
def aesRow2 : List Nat := [183, 253, 147, 38, 54, 63, 247, 204, 52, 165, 229, 241, 113, 216, 49, 21]
def aesRow3 : List Nat := [4, 199, 35, 195, 24, 150, 5, 154, 7, 18, 128, 226, 235, 39, 178, 117]
def aesRow4 : List Nat := [9, 131, 44, 26, 27, 110, 90, 160, 82, 59, 214, 179, 41, 227, 47, 132]
def aesRow5 : List Nat := [83, 209, 0, 237, 32, 252, 177, 91, 106, 203, 190, 57, 74, 76, 88, 207]
def aesRow6 : List Nat := [208, 239, 170, 251, 67, 77, 51, 133, 69, 249, 2, 127, 80, 60, 159, 168]
def aesRow7 : List Nat := [81, 163, 64, 143, 146, 157, 56, 245, 188, 182, 218, 33, 16, 255, 243, 210]
def aesRow8 : List Nat := [205, 12, 19, 236, 95, 151, 68, 23, 196, 167, 126, 61, 100, 93, 25, 115]
def aesRow9 : List Nat := [96, 129, 79, 220, 34, 42, 144, 136, 70, 238, 184, 20, 222, 94, 11, 219]
def aesRow10 : List Nat := [224, 50, 58, 10, 73, 6, 36, 92, 194, 211, 172, 98, 145, 149, 228, 121]
def aesRow11 : List Nat := [231, 200, 55, 109, 141, 213, 78, 169, 108, 86, 244, 234, 101, 122, 174, 8]
def aesRow12 : List Nat := [186, 120, 37, 46, 28, 166, 180, 198, 232, 221, 116, 31, 75, 189, 139, 138]
def aesRow13 : List Nat := [112, 62, 181, 102, 72, 3, 246, 14, 97, 53, 87, 185, 134, 193, 29, 158]
def aesRow14 : List Nat := [225, 248, 152, 17, 105, 217, 142, 148, 155, 30, 135, 233, 206, 85, 40, 223]
def aesRow15 : List Nat := [140, 161, 137, 13, 191, 230, 66, 104, 65, 153, 45, 15, 176, 84, 187, 22]

/-- The AES substitution table. -/
def aesSbox : List Nat :=
  aesRow0 ++ aesRow1 ++ aesRow2 ++ aesRow3 ++ aesRow4 ++ aesRow5 ++ aesRow6 ++ aesRow7 ++
  aesRow8 ++ aesRow9 ++ aesRow10 ++ aesRow11 ++ aesRow12 ++ aesRow13 ++ aesRow14 ++ aesRow15

/-- One byte substituted. -/
def subByte (b : Nat) : Nat := aesSbox.getD (b % 256) 0

/-- Multiplication by x in GF(2^8). -/
def xtime (b : Nat) : Nat := if b < 128 then 2 * b else (2 * b - 256) ^^^ 0x1B

/-- Bytes combined by exclusive or. -/
def xorBytes (a b : List Nat) : List Nat := List.zipWith (fun x y => x ^^^ y) a b

/-- ShiftRows of a state of 16 bytes in column order. -/
def shiftRows (s : List Nat) : List Nat :=
  (List.range 16).map fun i => s.getD ((i + 4 * (i % 4)) % 16) 0

/-- MixColumns of one column. -/
def mixColumn (s : List Nat) : List Nat :=
  (List.range 4).map fun i =>
    let a := fun (j : Nat) => s.getD ((i + j) % 4) 0
    xtime (a 0) ^^^ (xtime (a 1) ^^^ a 1) ^^^ a 2 ^^^ a 3

/-- MixColumns. -/
def mixColumns (s : List Nat) : List Nat :=
  (List.range 4).flatMap fun c => mixColumn ((s.drop (4 * c)).take 4)

/-- The next round key. -/
def nextKey (k : List Nat) (rcon : Nat) : List Nat :=
  let t := [subByte (k.getD 13 0) ^^^ rcon, subByte (k.getD 14 0), subByte (k.getD 15 0), subByte (k.getD 12 0)]
  let w0 := xorBytes (k.take 4) t
  let w1 := xorBytes ((k.drop 4).take 4) w0
  let w2 := xorBytes ((k.drop 8).take 4) w1
  let w3 := xorBytes ((k.drop 12).take 4) w2
  w0 ++ w1 ++ w2 ++ w3

/-- Rounds from a state and a round key; the last has no MixColumns. -/
def aesRounds : Nat → Nat → List Nat → List Nat → List Nat
  | 0, _, s, _ => s
  | n + 1, rcon, s, k =>
    let k := nextKey k rcon
    let s := shiftRows (s.map subByte)
    aesRounds n (xtime rcon) (xorBytes (if n = 0 then s else mixColumns s) k) k

/-- AES-128 of one block of 16 bytes. -/
def aes128 (key block : List Nat) : List Nat := aesRounds 10 1 (xorBytes block key) key

/-- Doubling in GF(2^128) of a block, most significant byte first (the subkeys of SP 800-38B). -/
def cmacDouble (b : List Nat) : List Nat :=
  let n := b.foldl (fun x y => 256 * x + y) 0
  let m := if n < 2 ^ 127 then 2 * n else (2 * n - 2 ^ 128) ^^^ 0x87
  ((beBytes 16 m).map BitVec.toNat)

/-- The chaining of CMAC over whole blocks. -/
def cmacChain (key : List Nat) : Nat → List Nat → List Nat → List Nat
  | 0, x, _ => x
  | n + 1, x, m => cmacChain key n (aes128 key (xorBytes x (m.take 16))) (m.drop 16)

/-- AES-128-CMAC of a message (NIST SP 800-38B). -/
def cmac (key msg : List Nat) : List Nat :=
  let k1 := cmacDouble (aes128 key (List.replicate 16 0))
  let n := (msg.length + 15) / 16
  let full := decide (0 < msg.length ∧ msg.length % 16 = 0)
  let lastAt := if n = 0 then 0 else 16 * (n - 1)
  let last := msg.drop lastAt
  let last := if full then xorBytes last k1
    else xorBytes (last ++ [0x80] ++ List.replicate (15 - last.length) 0) (cmacDouble k1)
  cmacChain key (max n 1) (List.replicate 16 0) (msg.take lastAt ++ last)

/-! ### SHA-256 -/

def shaK0 : List Nat := [0x428a2f98, 0x71374491, 0xb5c0fbcf, 0xe9b5dba5, 0x3956c25b, 0x59f111f1, 0x923f82a4, 0xab1c5ed5]
def shaK1 : List Nat := [0xd807aa98, 0x12835b01, 0x243185be, 0x550c7dc3, 0x72be5d74, 0x80deb1fe, 0x9bdc06a7, 0xc19bf174]
def shaK2 : List Nat := [0xe49b69c1, 0xefbe4786, 0x0fc19dc6, 0x240ca1cc, 0x2de92c6f, 0x4a7484aa, 0x5cb0a9dc, 0x76f988da]
def shaK3 : List Nat := [0x983e5152, 0xa831c66d, 0xb00327c8, 0xbf597fc7, 0xc6e00bf3, 0xd5a79147, 0x06ca6351, 0x14292967]
def shaK4 : List Nat := [0x27b70a85, 0x2e1b2138, 0x4d2c6dfc, 0x53380d13, 0x650a7354, 0x766a0abb, 0x81c2c92e, 0x92722c85]
def shaK5 : List Nat := [0xa2bfe8a1, 0xa81a664b, 0xc24b8b70, 0xc76c51a3, 0xd192e819, 0xd6990624, 0xf40e3585, 0x106aa070]
def shaK6 : List Nat := [0x19a4c116, 0x1e376c08, 0x2748774c, 0x34b0bcb5, 0x391c0cb3, 0x4ed8aa4a, 0x5b9cca4f, 0x682e6ff3]
def shaK7 : List Nat := [0x748f82ee, 0x78a5636f, 0x84c87814, 0x8cc70208, 0x90befffa, 0xa4506ceb, 0xbef9a3f7, 0xc67178f2]

/-- The round constants. -/
def shaK : List (BitVec 32) :=
  (shaK0 ++ shaK1 ++ shaK2 ++ shaK3 ++ shaK4 ++ shaK5 ++ shaK6 ++ shaK7).map fun k => BitVec.ofNat 32 k

/-- The initial hash value. -/
def shaInit : List (BitVec 32) := ([0x6a09e667, 0xbb67ae85, 0x3c6ef372, 0xa54ff53a, 0x510e527f, 0x9b05688c, 0x1f83d9ab, 0x5be0cd19] : List Nat).map fun k => BitVec.ofNat 32 k

/-- The message schedule, newest word first. -/
def shaSchedule : Nat → List (BitVec 32) → List (BitVec 32)
  | 0, w => w
  | n + 1, w =>
    let a := w.getD 14 0
    let b := w.getD 1 0
    let s0 := a.rotateRight 7 ^^^ a.rotateRight 18 ^^^ a >>> 3
    let s1 := b.rotateRight 17 ^^^ b.rotateRight 19 ^^^ b >>> 10
    shaSchedule n ((w.getD 15 0 + s0 + w.getD 6 0 + s1) :: w)

/-- One round. -/
def shaRound (h : List (BitVec 32)) (kw : BitVec 32) : List (BitVec 32) :=
  match h with
  | [a, b, c, d, e, f, g, x] =>
    let t1 := x + (e.rotateRight 6 ^^^ e.rotateRight 11 ^^^ e.rotateRight 25) + ((e &&& f) ^^^ (~~~e &&& g)) + kw
    let t2 := (a.rotateRight 2 ^^^ a.rotateRight 13 ^^^ a.rotateRight 22) + ((a &&& b) ^^^ (a &&& c) ^^^ (b &&& c))
    [t1 + t2, a, b, c, d + t1, e, f, g]
  | _ => h

/-- One block of 64 bytes. -/
def shaBlock (h : List (BitVec 32)) (blk : List Byte) : List (BitVec 32) :=
  let w := (List.range 16).map fun i => BitVec.ofNat 32 (beNat ((blk.drop (4 * i)).take 4))
  let ws := (shaSchedule 48 w.reverse).reverse
  List.zipWith (fun x y => x + y) h ((List.zipWith (fun k x => k + x) shaK ws).foldl shaRound h)

/-- The blocks of a padded message. -/
def shaBlocks : Nat → List (BitVec 32) → List Byte → List (BitVec 32)
  | 0, h, _ => h
  | n + 1, h, m => shaBlocks n (shaBlock h (m.take 64)) (m.drop 64)

/-- The SHA-256 digest of a message, as a number. -/
def sha256 (msg : List Byte) : Nat :=
  let n := msg.length
  let zeros := (119 - n % 64) % 64
  let padded := msg ++ [0x80] ++ List.replicate zeros 0 ++ beBytes 8 (8 * n)
  (shaBlocks (padded.length / 64) shaInit padded).foldl (fun x w => x * 2 ^ 32 + w.toNat) 0

/-! ### ECDSA over P-256 -/

def p256P : Nat := 0xffffffff00000001000000000000000000000000ffffffffffffffffffffffff
def p256N : Nat := 0xffffffff00000000ffffffffffffffffbce6faada7179e84f3b9cac2fc632551
def p256B : Nat := 0x5ac635d8aa3a93e7b3ebbd55769886bc651d06b0cc53b0f63bce3c3e27d2604b
def p256Gx : Nat := 0x6b17d1f2e12c4247f8bce6e563a440f277037d812deb33a0f4a13945d898c296
def p256Gy : Nat := 0x4fe342e2fe1a7f9b8ee7eb4a7c0f9e162bce33576b315ececbb6406837bf51f5

/-- A point in Jacobian coordinates; Z = 0 is the point at infinity. -/
structure Jac where
  x : Nat
  y : Nat
  z : Nat

/-- Powers modulo m, by the bits of the exponent from bit k − 1 down. -/
def powMod (m b : Nat) : Nat → Nat → Nat
  | 0, _ => 1 % m
  | k + 1, e =>
    let r := powMod m b k (e / 2)
    let r2 := r * r % m
    if e % 2 = 1 then r2 * b % m else r2

/-- The inverse modulo a prime. -/
def invMod (m a : Nat) : Nat := powMod m (a % m) 256 (m - 2)

/-- Difference modulo the field prime. -/
def fsub (a b : Nat) : Nat := (a + p256P - b) % p256P

/-- Doubling. -/
def Jac.dbl (q : Jac) : Jac :=
  if q.z = 0 ∨ q.y = 0 then ⟨1, 1, 0⟩
  else
    let p := p256P
    let ysq := q.y * q.y % p
    let s := 4 * q.x * ysq % p
    let zz := q.z * q.z % p
    let m := 3 * (fsub q.x zz * ((q.x + zz) % p) % p) % p
    let x := fsub (m * m % p) (2 * s % p)
    ⟨x, fsub (m * fsub s x % p) (8 * ysq * ysq % p), 2 * q.y * q.z % p⟩

/-- Addition. -/
def Jac.add (q r : Jac) : Jac :=
  if q.z = 0 then r
  else if r.z = 0 then q
  else
    let p := p256P
    let z1 := q.z * q.z % p
    let z2 := r.z * r.z % p
    let u1 := q.x * z2 % p
    let u2 := r.x * z1 % p
    let s1 := q.y * (r.z * z2 % p) % p
    let s2 := r.y * (q.z * z1 % p) % p
    let h := fsub u2 u1
    let t := fsub s2 s1
    if h = 0 then (if t = 0 then q.dbl else ⟨1, 1, 0⟩)
    else
      let hh := h * h % p
      let hhh := h * hh % p
      let v := u1 * hh % p
      let x := fsub (fsub (t * t % p) hhh) (2 * v % p)
      ⟨x, fsub (t * fsub v x % p) (s1 * hhh % p), h * q.z % p * r.z % p⟩

/-- A multiple of a point, by the low k bits of the factor. -/
def Jac.mul (q : Jac) : Nat → Nat → Jac
  | 0, _ => ⟨1, 1, 0⟩
  | k + 1, e =>
    let r := (q.mul k (e / 2)).dbl
    if e % 2 = 1 then r.add q else r

/-- The key is a point of the curve. -/
def onCurve (x y : Nat) : Bool :=
  decide (x < p256P ∧ y < p256P ∧ y * y % p256P = (x * x * x + (p256P - 3) * x + p256B) % p256P)

/-- ECDSA verification of a digest. -/
def ecdsaOk (qx qy digest r s : Nat) : Bool :=
  onCurve qx qy && decide (0 < r ∧ r < p256N ∧ 0 < s ∧ s < p256N) &&
  let w := invMod p256N s
  let g : Jac := ⟨p256Gx, p256Gy, 1⟩
  let q : Jac := ⟨qx, qy, 1⟩
  let t := (g.mul 256 (digest * w % p256N)).add (q.mul 256 (r * w % p256N))
  if t.z = 0 then false
  else
    let zi := invMod p256P t.z
    t.x * (zi * zi % p256P) % p256P % p256N == r

/-! ### Check sums -/

/-- One byte of a reflected CRC. -/
def crcByte (poly : Nat) : Nat → Nat → Nat
  | 0, c => c
  | k + 1, c => crcByte poly k (if c % 2 = 1 then (c / 2) ^^^ poly else c / 2)

/-- CRC-32 of IEEE 802.3. -/
def crc32 (bs : List Byte) : Nat :=
  (bs.foldl (fun c b => crcByte 0xEDB88320 8 (c ^^^ b.toNat)) 0xFFFFFFFF) ^^^ 0xFFFFFFFF

/-- One bit of the CRC-8 with polynomial 0x2F. -/
def crc8Bits : Nat → Nat → Nat
  | 0, c => c
  | k + 1, c => crc8Bits k (if 128 ≤ c then ((2 * c) % 256) ^^^ 0x2F else 2 * c)

/-- CRC-8 with polynomial 0x2F, initial value and final exclusive or 0xFF, over bytes most significant first. -/
def crc8 (bs : List Byte) : Nat := (bs.foldl (fun c b => crc8Bits 8 (c ^^^ b.toNat)) 0xFF) ^^^ 0xFF

end Sys2Proof.Machine
end

