-- ==== Sys2Proof/Machine/Sinter.lean ====
section
/-! DEFINITION. What stands in Sinter (chapter 18): words, records, key slots and CMAC keys as the warden sees them; and the
window in which it may be programmed. -/

namespace Sys2Proof.Machine

/-- A Sinter word; `none` is blank (R384). -/
def otpWord (otp : List (Nat × Option Word)) (a : Nat) : Option Word := tget (fun _ => none) otp a

/-- A Sinter word programmed. -/
def otpSet (otp : List (Nat × Option Word)) (a : Nat) (w : Word) : List (Nat × Option Word) :=
  tset (fun _ => none) otp a (some w)

/-- States of a word (R390, R401). -/
inductive WordState where
  | good | blank | marginal
  deriving DecidableEq, Repr

/-- The state of a word since the last boot read or its programming. -/
def Dev.wordState (d : Dev) (otp : List (Nat × Option Word)) (a : Nat) : WordState :=
  if d.wdn.marginal.contains a then .marginal else if (otpWord otp a).isSome then .good else .blank

/-- A lock bit of SNT_LOCK (R395). -/
def Dev.lockBit (d : Dev) (r : Nat) : Bool := d.bit F.SNT_LOCK_LOCK 0 r

/-- OPEN 0, VALID 1, VOID 2, REVOKED 3 of a set of words with a revocation word (R393). -/
def Dev.keyCode (d : Dev) (otp : List (Nat × Option Word)) (words : List Nat) (rev : Nat) (locked : Bool) : Nat :=
  if d.wordState otp rev ≠ .blank then 3
  else if words.any fun a => d.wordState otp a == .marginal then 2
  else if words.all fun a => d.wordState otp a == .good then 1
  else if locked then 2 else 0

/-- The digest words of a key slot. -/
def slotWords (s : Nat) : List Nat := (List.range 8).map fun i => 0x100 + 0x20 * s + i
/-- The key words and the check word of a CMAC key. -/
def cmacWords (j : Nat) : List Nat := (List.range 5).map fun i => 0x180 + 5 * j + i
/-- Revocation words. -/
def slotRev (s : Nat) : Nat := 0x108 + 0x20 * s
def cmacRev (j : Nat) : Nat := 0x1D0 + j

/-- The state of a key slot. -/
def Dev.slotState (d : Dev) (otp : List (Nat × Option Word)) (s : Nat) : Nat :=
  d.keyCode otp (slotWords s) (slotRev s) (d.lockBit 1)
/-- The state of a CMAC key. -/
def Dev.cmacState (d : Dev) (otp : List (Nat × Option Word)) (j : Nat) : Nat :=
  d.keyCode otp (cmacWords j) (cmacRev j) (d.lockBit 2)

/-- SNT_KEYS shows the states. -/
def Dev.showKeys (d : Dev) (otp : List (Nat × Option Word)) : Dev :=
  let slots := (List.range 4).foldl (fun n s => n + d.slotState otp s * 4 ^ s) 0
  let keys := (List.range 16).foldl (fun n j => n + d.cmacState otp j * 4 ^ j) 0
  (d.put F.SNT_KEYS_SLOT 0 slots).put F.SNT_KEYS_KEY 0 keys

/-- The digest in eight consecutive words, byte 4i of the digest in [31:24] of word i (R386). -/
def otpDigest (otp : List (Nat × Option Word)) (a : Nat) : Nat :=
  (List.range 8).foldl (fun n i => n * 2 ^ 32 + ((otpWord otp (a + i)).getD 0).toNat % 2 ^ 32) 0

/-- Four words of 32 key bits as the key's bytes: word i holds bytes 4i to 4i + 3, byte 4i in [31:24]. -/
def keyBytes (ws : List Nat) : List Nat := ws.flatMap fun w => (beBytes 4 w).map BitVec.toNat

/-- The device-unique mask as four words of 32 bits. -/
def maskWords : List Nat := (List.range 4).map fun i => (Config.keyMask.toNat >>> (32 * (3 - i))) % 2 ^ 32

/-- A CMAC key, unscrambled. -/
def cmacKey (otp : List (Nat × Option Word)) (j : Nat) : List Nat :=
  keyBytes (List.zipWith (fun a m => ((otpWord otp a).getD 0).toNat % 2 ^ 32 ^^^ m) ((cmacWords j).take 4) maskWords)

/-- Three bytes of AES-128 of the zero block under a key: the check value (R386). -/
def checkValue (key : List Nat) : Nat :=
  ((aes128 key (List.replicate 16 0)).take 3).foldl (fun n b => 256 * n + b) 0

/-- A rollback word as the warden sees it: where the boot reads differed, each bit that either of them gave (R390). -/
def Dev.rollWord (d : Dev) (otp : List (Nat × Option Word)) (a : Nat) : Word :=
  match d.wdn.roll.find? fun p => p.1 == a with
  | some p => p.2
  | none => (otpWord otp a).getD 0

/-- The value of a rollback counter: the number of its bits that read 1 (R388). -/
def Dev.rollbackValue (d : Dev) (otp : List (Nat × Option Word)) (a : Nat) : Nat :=
  (List.range 32).foldl (fun n i => n + popcount 40 (d.rollWord otp (a + i)).toNat) 0

/-- Where the image counter and the patch counter begin. -/
def imageCounter : Nat := 0x380
def patchCounter : Nat := 0x3A0

/-- The copies of a critical record (R387). -/
def recordCopies (r : Nat) : List Nat := (List.range 3).map fun c => 0x3C0 + 21 * c + r

/-! ### The programming window (R397, R399) -/

/-- The programming window is open (R397). -/
def Dev.windowOpen (d : Dev) : Bool := d.flag F.SNT_STAT_WINOK

/-- A programming service ends at the next word boundary with a RESULT (R402); the first reason stands. -/
def Dev.stopSvc (d : Dev) (reason : Nat) : Dev :=
  d.modWdn fun w => match w.svc with
    | some v => if v.stop = 0 then { w with svc := some { v with stop := reason } } else w
    | none => w

/-- PROGRAMMING_WINDOW_CHANGE: VIO and Tj lie in their ranges or not. Without a valid reading less than 1 ms old Tj counts as
out of its range. A departure ends a programming service with WINDOW. -/
def Dev.windowChange (d : Dev) (vio tj : Bool) : Dev :=
  let before := d.windowOpen
  let tj := tj && d.flag F.THM_STAT_VALID
  let d := ((d.putB F.SNT_STAT_VIOOK 0 vio).putB F.SNT_STAT_TJOK 0 tj).putB F.SNT_STAT_WINOK 0 (vio && tj)
  let d := d.raiseIf (before != (vio && tj)) 121
  if vio && tj then d else d.stopSvc 0x05

end Sys2Proof.Machine
end

