-- ==== Sys2Proof/Machine/Link.lean ====
section
/-! DEFINITION. The Vent link: heartbeats, status packets, stop packets, arming packets, fault clears; and the Vent die's
own events (chapters 5 and 19). -/

namespace Sys2Proof.Machine

/-! ### Heartbeats (R15, R16, R417, R420, R421) -/

/-- The heartbeat is sent with the frame counter, the period, the states held and the standing stop requests. -/
def Dev.sendHeartbeat (d : Dev) : Dev :=
  let states := tabulate 8 d.cst
  d.modLink fun l => { l with
    hb := some { fcnt := (d.reg (F.GEY_FCNT.at_ 0)).toNat, period := d.len, states := states,
                 stops := tabulate 8 fun k => uget l.stopReq k }
    await := some states, lost := false, status := none }

/-- What one axis of the Vent die takes from a valid heartbeat: a carried stop request, RUN, or one more heartbeat
without RUN (R417, R420, R421). -/
def Vent.takeState (v : Vent) (now k : Nat) (st : Auth) (stop : Option StopAct) : Vent :=
  let v := match stop with
    | none => v
    | some a => v.stop now k .other a false
  let a := v.axis k
  if a.st = .armed then
    if st = .run then v.modAxis k fun a => { a with st := .run, noRun := 0 }
    else if 8 ≤ a.noRun + 1 then v.modAxis k fun a => { a with st := .safe, noRun := 0 }
    else v.modAxis k fun a => { a with noRun := a.noRun + 1 }
  else v

/-- Valid heartbeats of consecutive frames in a row, at most 2, after one of frame `fcnt` (R425). -/
def Vent.hbNext (v : Vent) (fcnt : Nat) : Nat := if fcnt = (v.hbFrame + 1) % 2 ^ 40 then min (v.hbGood + 1) 2 else 1

/-- A valid heartbeat on the Vent die. -/
def Vent.heartbeat (v : Vent) (now : Nat) (hb : Heartbeat) (vdrv iFrame : Nat) : Vent :=
  let v := { v with hbPeriod := hb.period, hbGood := v.hbNext hb.fcnt, hbFrame := hb.fcnt, vdrv := vdrv, iavg := (iFrame :: v.iavg).take 64 }
  let v := if v.scan.isSome then v
    else (List.range 8).foldl (fun v k => v.takeState now k (hb.states.getD k .safe) (hb.stops.getD k none)) v
  let v := (List.range 24).foldl (fun v l => v.xlockFrame now l) v
  v.brakesUpdate now

/-- A leg whose axis enters RUN on the Vent die with command lines that stand high: a new turn-on, held back within the
dead time (R85); both lines high are an interlock (R86). -/
def VLeg.linesUp (g : VLeg) (now dt : Nat) (h l : Bool) : VLeg :=
  if h && l then { (g.allOff now false) with ilock := true, xlock := satAdd 16 g.xlock 1 }
  else if h || l then
    if now < g.clearAt dt h then g.holdBack dt h else { g with pend := some h, pendAt := now }
  else g

/-- Gates whose command lines already stand high when their axis enters RUN on the Vent die are new turn-ons (R85). -/
def Dev.linesAtRun (d : Dev) (before : Vent) : Dev :=
  (List.range 24).foldl (fun d m =>
    let k := axisOf m
    if (d.vent.axis k).st = .run ∧ (before.axis k).st ≠ .run then
      let u := d.leg (d.lineUnit m)
      if u.hcmd ∨ u.lcmd then d.modVent fun v => v.modLeg m fun g => g.linesUp d.clk.now (v.dt m) u.hcmd u.lcmd else d
    else d) d

/-- The Vent die takes a heartbeat; a bad CRC or a die in reset discards it, and a discarded one counts as missed (R15). A
valid one is answered by a status packet. -/
def Dev.heartbeatRx (d : Dev) (crcOk : Bool) (vdrv iFrame : Nat) : Dev :=
  match d.link.hb with
  | none => d
  | some hb =>
    let d := d.modLink fun l => { l with hb := none }
    if d.vent.inReset then d
    else if !crcOk then d.modVent fun v => { v with hbGood := 0 }
    else
      let before := d.vent
      let d := (d.modVent fun v => v.heartbeat d.clk.now hb vdrv iFrame).linesAtRun before
      d.modLink fun l => { l with status := some d.vent }

/-- The warden's exchange updated. -/
def Dev.modArm (d : Dev) (f : ArmX → ArmX) : Dev := d.modLink fun l => { l with arm := l.arm.map f }

/-- Heartbeat loss (R16). An exchange whose ARM_ACK has not arrived fails: no packet of it is answered any more, and the
warden's wait runs out (R432). A refusal that is already under way fails it, too. -/
def Dev.heartbeatLoss (d : Dev) : Dev :=
  if d.vent.inReset then d
  else (d.modVent fun v => (v.linkLoss d.clk.now).brakesUpdate d.clk.now).modArm fun x =>
    if x.stage = .nak then x else { x with stage := .lost }

/-- A LINKDOWN packet (R413). -/
def Dev.linkdownRx (d : Dev) : Dev :=
  if d.link.linkdown then (d.modLink fun l => { l with linkdown := false }).heartbeatLoss else d

/-- A STOP packet (R421). -/
def Dev.stopRx (d : Dev) (k : Nat) : Dev :=
  match uget d.link.stopPkt k with
  | none => d
  | some a =>
    let d := d.modLink fun l => { l with stopPkt := uset l.stopPkt k none }
    if d.vent.inReset then d
    else d.modVent fun v => (v.stop d.clk.now k .other a false).brakesUpdate d.clk.now

/-! ### Configuration (R57, R59) -/

/-- The configuration that the control die holds for the Vent die. -/
def Dev.ventCfg (d : Dev) : VentCfg where
  legs := ((List.range 24).map fun l => (l, ({ cfg := d.reg (F.LEG_CFG.at_ l), gdrv := d.reg (F.LEG_GDRV.at_ l) } : VLegCfg))).filter
    fun p => p.2 ≠ default
  brakes := ((List.range 4).filter fun b => d.get F.BRK_CFG_ON b ≠ 0).map fun b =>
    (b, some { cfg := d.reg (F.BRK_CFG.at_ b), gdrv := d.reg (F.BRK_GDRV.at_ b) })
  tsd := d.get F.THM_LIM_TSD
  hsd := d.get F.THM_LIM_HSD
  gang := (List.range 8).foldl (fun m k => if (d.partner k).isSome then m ||| 1 <<< k else m) 0

/-- The configuration is sent; sendings after the first are counted. -/
def Dev.sendCfg (d : Dev) (again : Bool) : Dev :=
  let d := d.modLink fun l => { l with cfg := some d.ventCfg, cfgTry := l.cfgTry + 1 }
  if again then d.bump F.DIE_LINK_RESENDS 0 else d

/-! ### Status packets (R115, R423 to R428) -/

/-- A counter of the Vent die is added to its copy as the rise since the packet before. -/
def Dev.addRise (d : Dev) (f : Fld) (i new old : Nat) : Dev :=
  if new = old then d else d.bump f i (if old < new then new - old else new)

/-- A latch of the Vent die is copied: newly latched when the packet before, since the last Vent-die reset, or the copy did
not show it (R115). -/
def Dev.copyLatch (d : Dev) (f : Fld) (i : Nat) (new old : Bool) (ev : Dev → Dev) : Dev :=
  if new && (!old || !d.flag f i) then ev (d.putB f i true) else d

/-- One phase leg of a status packet. -/
def Dev.copyLeg (d : Dev) (v o : Vent) (l : Nat) : Dev :=
  let g := v.leg l
  let p := o.leg l
  let k := axisOf l
  let ev := fun d : Dev => d.axEvent k 0
  let d := d.copyLatch F.LEG_FLT_VDSH l g.h.vds p.h.vds ev
  let d := d.copyLatch F.LEG_FLT_VDSL l g.l.vds p.l.vds ev
  let d := d.copyLatch F.LEG_FLT_BSTUV l g.bstuv p.bstuv ev
  let d := d.copyLatch F.LEG_FLT_XLOCKF l g.xlockf p.xlockf ev
  let d := d.addRise F.LEG_FLT_BLKCNT l g.blkcnt p.blkcnt
  let d := d.addRise F.LEG_FLT_BSTINH l g.bstinh p.bstinh
  let d := d.addRise F.LEG_VSTAT_DTFIX l g.dtfix p.dtfix
  let d := d.addRise F.LEG_VSTAT_XLOCK l g.xlock p.xlock
  d.raiseIf (decide (p.blkcnt < g.blkcnt ∨ p.bstinh < g.bstinh ∨ p.dtfix < g.dtfix ∨ p.xlock < g.xlock)) (8 * k + 1)

/-- One axis of a status packet. ACTION shows RAMP while the control die runs one (log entry 30). -/
def Dev.copyAxis (d : Dev) (v o : Vent) (k : Nat) : Dev :=
  let a := v.axis k
  let p := o.axis k
  let fl := fun (f : Fld) => f.nth k
  let ev := fun d : Dev => d.axEvent k 0
  let d := d.copyLatch (fl F.VNT_AFLT_TRIP) 0 a.trip p.trip ev
  let d := d.copyLatch (fl F.VNT_AFLT_LINK) 0 a.link p.link fun d => (ev d).raise 118
  let d := d.copyLatch (fl F.VNT_AFLT_TSD) 0 a.tsd p.tsd ev
  let any := fun (f : Fld) => (legsOf k).any fun l => d.flag f l
  let d := d.putB (fl F.VNT_AFLT_VDS) 0 (any F.LEG_FLT_VDSH || any F.LEG_FLT_VDSL)
  let d := d.putB (fl F.VNT_AFLT_BSTUV) 0 (any F.LEG_FLT_BSTUV)
  let d := d.putB (fl F.VNT_AFLT_XLOCK) 0 (any F.LEG_FLT_XLOCKF)
  let d := d.put (fl F.VNT_AFLT_VSTATE) 0 a.st.code
  let d := d.put (fl F.VNT_AFLT_ACTION) 0 (if (d.comm k).ramp.isSome && a.act == .none then 4 else a.act.code)
  let d := d.putB (fl F.VNT_AFLT_GANG) 0 a.gang
  let d := d.addRise (fl F.VNT_AFLT_STOPS) 0 a.stops p.stops
  d.setVst k a.st

/-- One brake leg of a status packet. -/
def Dev.copyBrake (d : Dev) (v o : Vent) (b : Nat) : Dev :=
  let g := v.brake b
  let p := o.brake b
  let d := d.copyLatch F.BRK_FLT_SC b g.sc p.sc fun d => d.raise 119
  let d := (d.addRise F.BRK_FLT_SCCNT b g.sccnt p.sccnt).addRise F.BRK_STAT_CLAMPS b g.clamps p.clamps
  (d.putB F.BRK_STAT_CMP b g.cmp).putB F.BRK_STAT_ON b g.gate

/-- VNT_FIRST (R108). A copy from before a Vent-die reset stands until it is cleared (R120). -/
def Dev.copyFirst (d : Dev) (f : VFirst) : Dev :=
  if f.valid1 && !d.link.firstKept then
    let d := (d.put F.VNT_FIRST_LEG1 0 f.leg1).putB F.VNT_FIRST_SIDE1 0 f.side1
    let d := (d.put F.VNT_FIRST_LEG2 0 f.leg2).putB F.VNT_FIRST_SIDE2 0 f.side2
    let d := (d.putB F.VNT_FIRST_VALID1 0 true).putB F.VNT_FIRST_VALID2 0 f.valid2
    (d.putB F.VNT_FIRST_SIM 0 f.sim).put F.VNT_FIRST_DELTA 0 f.delta
  else d

/-- The gate supply (R101, R119). DESIGN CHOICE (log entry 77, unsafe): the mean is rounded down and taken over the frames
held so far where they are fewer than 64, and the first packet after a reset gives MIN its first reading. -/
def Dev.copySupply (d : Dev) (v : Vent) : Dev :=
  let d := d.raiseIf ((v.vlow && !d.flag F.VNT_STAT_VLOW) || (v.vhigh && !d.flag F.VNT_STAT_VHIGH)) 119
  let d := (d.putB F.VNT_STAT_VLOW 0 v.vlow).putB F.VNT_STAT_VHIGH 0 v.vhigh
  let avg := v.iavg.sum / max 1 v.iavg.length
  let d := (d.put F.VNT_VDRV_VDRV 0 v.vdrv).put F.VNT_VDRV_IAVG 0 (min avg 1023)
  let d := if d.link.last.isNone ∨ v.vdrv < d.get F.VNT_VDRV_MIN then d.put F.VNT_VDRV_MIN 0 v.vdrv else d
  if 400 < avg then (d.raiseIf (!d.flag F.VNT_STAT_IOVER) 119).putB F.VNT_STAT_IOVER 0 true else d

/-- One threshold flag with hysteresis (R428): the reading in 0.125 °C. -/
def Dev.hystFlag (d : Dev) (f lim hys : Fld) (t : Int) (ev : Nat) : Dev :=
  let hi : Int := ((8 * d.get lim : Nat) : Int)
  let lo : Int := hi - ((8 * d.get hys : Nat) : Int)
  let now := if d.flag f then decide (lo ≤ t) else decide (hi ≤ t)
  (d.raiseIf (now != d.flag f) ev).putB f 0 now

/-- The temperature of a status packet (R427, R428, R430). -/
def Dev.copyThermal (d : Dev) (v : Vent) : Dev :=
  let d := d.putB F.THM_STAT_DFAIL 0 v.dfail
  let d := (d.raiseIf (v.tsdLatch && !d.flag F.THM_STAT_TSDL) 114).putB F.THM_STAT_TSDL 0 v.tsdLatch
  match v.temp with
  | none => d
  | some t =>
    if v.dfail then d
    else
      let d := d.putI F.THM_TEMP_TEMP 0 t
      let first := !d.link.seenTemp
      let d := if first || decide (t < d.getI F.THM_TEMP_MIN) then d.putI F.THM_TEMP_MIN 0 t else d
      let d := if first || decide (d.getI F.THM_TEMP_MAX < t) then d.putI F.THM_TEMP_MAX 0 t else d
      let d := (d.raiseIf (!d.flag F.THM_STAT_VALID) 113).putB F.THM_STAT_VALID 0 true
      let d := (d.hystFlag F.THM_STAT_WARN F.THM_LIM_TWARN F.THM_LIM_HWARN t 112).hystFlag
        F.THM_STAT_THR F.THM_LIM_TTHR F.THM_LIM_HTHR t 113
      let d := d.putB F.THM_STAT_TSDT 0 (decide (8 * ((d.get F.THM_LIM_TSD : Int) - d.get F.THM_LIM_HSD) ≤ t))
      d.modLink fun l => { l with seenTemp := true }

/-- Latch a disagreement of an axis (R423, R425). -/
def Dev.latchDis (d : Dev) (k : Nat) : Dev := (d.putBit F.DIE_DIS_DIS 0 k true).bump F.DIE_DIS_COUNT 0

/-- The control-die counts and VNT_FIRST at the first packet after a Vent-die reset: LEG_VSTAT restarts, VNT_FIRST is kept
(R97, R120). -/
def Dev.restartCounts (d : Dev) : Dev :=
  let d := d.each (List.range 24) fun l d => (d.put F.LEG_VSTAT_DTFIX l 0).put F.LEG_VSTAT_XLOCK l 0
  d.modLink fun l => { l with firstKept := d.flag F.VNT_FIRST_VALID1 }

/-- A Vent-die reset is seen (R425, R59): every axis that was not SAFE is lowered and shows in DIE_DIS before the STARTs
that they break are abandoned. -/
def Dev.ventResetSeen (d : Dev) : Dev :=
  let held := (List.range 8).filter fun k => d.cst k != .safe
  let d := d.each held fun k d => (d.latchDis k).lower k
  let d := d.each held fun k d => d.failPending k
  let d := ((d.raise 118).bump F.VNT_STAT_RSTCNT 0).putB F.VNT_STAT_CFGOK 0 false
  let d := d.modLink fun l => { l with rstArm := false, cfgTry := 0 }
  d.sendCfg true

/-- The comparison of R423 for one axis. Where the control die had asked for a stop itself, it is no disagreement (R432). -/
def Dev.compareState (d : Dev) (k : Nat) (carried : Auth) (v : Auth) (asked : Option StopAct) : Dev :=
  if v.code < carried.code ∧ asked = none then
    (((d.latchDis k).lower k).raise 117).failPending k
  else d

/-- A valid status packet. After a Vent-die reset the latches and counts that it carries are all new (R115, R120). -/
def Dev.takeStatus (d : Dev) (v : Vent) : Dev :=
  let reset := v.vrst && d.link.rstArm
  let o := if reset then {} else d.link.last.getD {}
  let d := if reset then d.restartCounts else d
  let carried := d.link.await.getD []
  let asked := d.link.stopReq
  let d := d.each (List.range 24) fun l d => d.copyLeg v o l
  let d := d.each (List.range 8) fun k d => d.copyAxis v o k
  let d := d.each (List.range 4) fun b d => d.copyBrake v o b
  let d := ((d.copyFirst v.first).copySupply v).copyThermal v
  let d := d.putB F.DIE_LINK_VSIL 0 false
  let d := d.modLink fun l => { l with
    await := none, status := none, missed := 0, last := some v, acked := 0, rstArm := l.rstArm || !v.vrst
    stopReq := l.stopReq.filter fun p => (v.axis p.1).st != .safe }
  if reset then d.ventResetSeen
  else d.each (List.range 8) fun k d => d.compareState k (carried.getD k .safe) (v.axis k).st (uget asked k)

/-- STATUS_PACKET: one with a bad CRC is lost (R424). -/
def Dev.statusRx (d : Dev) (crcOk : Bool) : Dev :=
  match d.link.status with
  | none => d
  | some v =>
    if crcOk then d.takeStatus v
    else (d.modLink fun l => { l with status := none, lost := true }).bump F.VNT_STAT_PKTLOST 0

/-- No valid status packet within 5 µs; the fourth in a row lowers every axis (R424). -/
def Dev.statusLate (d : Dev) : Dev :=
  match d.link.await with
  | none => d
  | some _ =>
    let d := if d.link.lost then d else d.bump F.VNT_STAT_PKTLOST 0
    let n := d.link.missed + 1
    let d := d.modLink fun l => { l with await := none, status := none, lost := false, missed := n }
    if n = 4 then
      let held := (List.range 8).filter fun k => d.cst k != .safe
      let d := d.each held fun k d => d.stopNoRamp k
      let d := d.each held fun k d => d.failPending k
      ((d.putB F.DIE_LINK_VSIL 0 true).putB F.DIE_LINK_VSILL 0 true).raise 116
    else d

/-- The last valid reading becomes 1 ms old: VALID falls (R427, R428), and the programming window closes (R397). The tick
takes SMIN for s from here on, and shows it (R429). -/
def Dev.thermalExpiry (d : Dev) : Dev :=
  if d.flag F.THM_STAT_VALID then
    ((d.putB F.THM_STAT_VALID 0 false).raise 113).windowChange (d.flag F.SNT_STAT_VIOOK) false
  else d

/-! ### Arming packets (R418, R419) -/

/-- A heartbeat loss has met the exchange that asked with this nonce (R432). -/
def Dev.armLost (d : Dev) (k n1 : Nat) : Bool := match d.link.arm with
  | none => false
  | some x => x.axis.val == k && x.n1 == n1 && x.stage == .lost

/-- ARM_REQ reaches the Vent die: ARM_CHAL with a fresh nonce, or ARM_NAK. In scan mode it ignores authority (R459). -/
def Dev.armReqRx (d : Dev) (k n1 : Nat) : Dev :=
  if d.vent.inReset || d.vent.scan.isSome || d.armLost k n1 then d
  else
    let r := d.vent.refuse k
    let n2 := (Config.nonce2 d.free).toNat
    let mine := fun x : ArmX => decide (x.axis.val = k ∧ x.n1 = n1 ∧ x.stage = .req)
    if r = 0 then
      let d := (d.modVent fun v => v.modAxis k fun a => { a with chal := some (n1, n2) }).tick1
      d.modArm fun x => if mine x then { x with stage := .chal, n2 := n2 } else x
    else d.modArm fun x => if mine x then { x with stage := .nak, n2 := r } else x

/-- ARM_CHAL reaches the warden: N1 is checked. A good one ends its wait; one with a wrong nonce is discarded (R418). -/
def Dev.armChalRx (d : Dev) (k n1 n2 : Nat) : Dev :=
  d.modArm fun x =>
    if x.axis.val = k ∧ d.wardenUp then
      if x.n1 ≠ n1 then { x with badNonce := true }
      else if x.stage = .chal then { x with stage := .conf, n2 := n2, badNonce := false }
      else x
    else x

/-- ARM_CONF reaches the Vent die: both nonces must match its open challenge. -/
def Dev.armConfRx (d : Dev) (k n1 n2 : Nat) : Dev :=
  if d.vent.inReset then d
  else if (d.vent.axis k).chal = some (n1, n2) then
    (d.modVent fun v => v.arm d.clk.now k).modArm fun x =>
      if x.axis.val = k ∧ x.stage = .conf then { x with stage := .done, badNonce := false } else x
  else d.modArm fun x => if x.axis.val = k then { x with badNonce := true } else x

/-- ARM_ACK reaches the control die (R417). -/
def Dev.armAckRx (d : Dev) (k : Nat) : Dev :=
  match d.link.arm with
  | none => d
  | some x =>
    if x.axis.val = k ∧ x.stage = .done ∧ d.wardenUp then
      let d := (d.put F.DIE_ARM_RESULT 0 1).put F.DIE_ARM_VREASON 0 0
      let d := (d.bump F.DIE_ARM_COUNT 0).setCst k .armed
      (d.modLink fun l => { l with arm := none, acked := setBit l.acked k true }).armNext
    else d

/-- ARM_NAK reaches the warden. -/
def Dev.armNakRx (d : Dev) (k reason : Nat) : Dev :=
  match d.link.arm with
  | none => d
  | some x => if x.axis.val = k ∧ x.stage = .nak ∧ x.n2 = reason ∧ d.wardenUp then d.armFail 3 reason else d

/-- An answer fails to arrive in 100 µs: NONCE if a packet was discarded for its nonces, otherwise TIMEOUT. -/
def Dev.armTimeout (d : Dev) : Dev :=
  match d.link.arm with
  | none => d
  | some x => if d.wardenUp then d.armFail (if x.badNonce then 4 else 2) 0 else d

/-! ### Fault clears (R115, R116, R425) -/

/-- The trip line of an axis: the OR of its pair's comparators (R14); a parallel primary takes both axes' (R42). -/
def Dev.tripLine (d : Dev) (k : Nat) : Bool :=
  let own := fun j => d.enabled j && (List.range 32).any fun i => d.flag F.ACC_TSTAT_OUT (32 * (d.topo j).pair + i)
  own k || (d.par k && own (k + 1))

/-- The mask of the indices below `n` that pass a test. -/
def maskOf (n : Nat) (p : Nat → Bool) : Nat := (List.range n).foldl (fun m i => if p i then m ||| 1 <<< i else m) 0

/-- The Vent die has received a valid heartbeat in each of the last 2 frames: in the two before this one, or in this one and
the one before (R425). -/
def Dev.hbSteady (d : Dev) : Bool :=
  let f := d.get F.GEY_FCNT 0
  decide (2 ≤ d.vent.hbGood ∧ (d.vent.hbFrame = f ∨ (d.vent.hbFrame + 1) % 2 ^ 40 = f))

/-- The warden checks the faults of the named axes and brake legs, as the control-die copies show them, and sends the
clear for those that pass. -/
def Dev.clearReq (d : Dev) (axes brakes : Nat) : ClrReq :=
  let leg := fun (f : Fld) => maskOf 24 fun l => axes.testBit (axisOf l) && d.flag f l
  let ax := fun (f : Fld) (ok : Nat → Bool) => maskOf 8 fun k => axes.testBit k && d.flag (f.nth k) && ok k
  { axes := axes, brakes := brakes
    vdsh := leg F.LEG_FLT_VDSH, vdsl := leg F.LEG_FLT_VDSL, bstuv := leg F.LEG_FLT_BSTUV, xlockf := leg F.LEG_FLT_XLOCKF
    trip := ax F.VNT_AFLT_TRIP fun k => !d.tripLine k
    link := ax F.VNT_AFLT_LINK fun _ => d.hbSteady
    tsd := ax F.VNT_AFLT_TSD fun _ => !d.vent.tsdLatch
    sc := maskOf 4 fun b => brakes.testBit b && d.flag F.BRK_FLT_SC b }

/-- The Vent die clears the latches that the clear names; VNT_FIRST empties once every VDS fault it names is cleared
(R108). -/
def Vent.clear (v : Vent) (c : ClrReq) : Vent :=
  let v := (List.range 24).foldl (fun v l => v.modLeg l fun g => { g with
    h := { g.h with vds := g.h.vds && !c.vdsh.testBit l }, l := { g.l with vds := g.l.vds && !c.vdsl.testBit l }
    bstuv := g.bstuv && !c.bstuv.testBit l, xlockf := g.xlockf && !c.xlockf.testBit l }) v
  let v := (List.range 8).foldl (fun v k => v.modAxis k fun a => { a with
    trip := a.trip && !c.trip.testBit k, link := a.link && !c.link.testBit k, tsd := a.tsd && !c.tsd.testBit k }) v
  let v := (List.range 4).foldl (fun v b => v.modBrake b fun g => { g with sc := g.sc && !c.sc.testBit b }) v
  let stands := fun (valid : Bool) (l : Nat) (side : Bool) =>
    valid && (if 24 ≤ l then (v.brake (l - 24)).sc else ((v.leg l).gate side).vds)
  if stands v.first.valid1 v.first.leg1 v.first.side1 || stands v.first.valid2 v.first.leg2 v.first.side2 then v
  else { v with first := {} }

/-- The control-die copies of the cleared faults; VNT_FIRST empties once every VDS fault that it names is cleared (R108). -/
def Dev.clearCopies (d : Dev) (c : ClrReq) : Dev :=
  let d := d.each (List.range 24) fun l d =>
    let off := fun (d : Dev) (f : Fld) (m : Nat) => if m.testBit l then d.putB f l false else d
    off (off (off (off d F.LEG_FLT_VDSH c.vdsh) F.LEG_FLT_VDSL c.vdsl) F.LEG_FLT_BSTUV c.bstuv) F.LEG_FLT_XLOCKF c.xlockf
  let d := d.each (List.range 8) fun k d =>
    let off := fun (d : Dev) (f : Fld) (m : Nat) => if m.testBit k then d.putB (f.nth k) 0 false else d
    let d := off (off (off d F.VNT_AFLT_TRIP c.trip) F.VNT_AFLT_LINK c.link) F.VNT_AFLT_TSD c.tsd
    let any := fun (f : Fld) => (legsOf k).any fun l => d.flag f l
    let d := d.putB (F.VNT_AFLT_VDS.nth k) 0 (any F.LEG_FLT_VDSH || any F.LEG_FLT_VDSL)
    (d.putB (F.VNT_AFLT_BSTUV.nth k) 0 (any F.LEG_FLT_BSTUV)).putB (F.VNT_AFLT_XLOCK.nth k) 0 (any F.LEG_FLT_XLOCKF)
  let d := d.each (List.range 4) fun b d => if c.sc.testBit b then d.putB F.BRK_FLT_SC b false else d
  let stands := fun (valid leg side : Fld) =>
    let l := d.get leg
    d.flag valid && (if 24 ≤ l then d.flag F.BRK_FLT_SC (l - 24)
      else d.flag (if d.flag side then F.LEG_FLT_VDSH else F.LEG_FLT_VDSL) l)
  if stands F.VNT_FIRST_VALID1 F.VNT_FIRST_LEG1 F.VNT_FIRST_SIDE1 || stands F.VNT_FIRST_VALID2 F.VNT_FIRST_LEG2 F.VNT_FIRST_SIDE2
  then d
  else (d.setReg (F.VNT_FIRST.at_ 0) 0).modLink fun l => { l with firstKept := false }

/-- The warden sends a fault clear; a warden that a mismatch has stopped sends none (R383). -/
def Dev.sendClear (d : Dev) (c : ClrReq) : Dev := if d.wdn.stopped then d else d.modLink fun l => { l with clr := some c }

/-- VNT_FCLR with GO (R116). A GO that meets a clear in flight shows REFUSED at once, and the result of the clear before it
follows at its confirmation (DESIGN CHOICE, log entry 86). -/
def Dev.fclrGo (d : Dev) (w : Word) : Dev :=
  let axes := fget w 0 8
  let brakes := fget w 8 4
  let d := (d.put F.VNT_FCLR_AXES 0 axes).put F.VNT_FCLR_BRAKES 0 brakes
  if fget w 12 1 = 0 then d
  else if d.link.clr.isSome ∨ (axes = 0 ∧ brakes = 0) then d.put F.VNT_FCLR_RESULT 0 3
  else (d.put F.VNT_FCLR_RESULT 0 0).sendClear (d.clearReq axes brakes)

/-- The Vent die confirms a fault clear: the latches and the copies clear, and the requester gets its result (R116). A warden
that a mismatch has stopped does its part no more (R383). -/
def Dev.fclrConfirm (d : Dev) : Dev :=
  match d.link.clr with
  | none => d
  | some c =>
    let d := d.modVent fun v => v.clear c
    if d.wdn.stopped then d else
    let d := (d.modLink fun l => { l with clr := none }).clearCopies c
    let left := maskOf 8 fun k => c.axes.testBit k && d.axisFaulted k
    let leftB := maskOf 4 fun b => c.brakes.testBit b && (d.flag F.BRK_FLT_SC b || (d.vent.brake b).sc)
    let all := decide (left = 0 ∧ leftB = 0)
    match d.jnl.clr with
    | none => d.put F.VNT_FCLR_RESULT 0 (if all then 1 else 2)
    | some r =>
      (d.modJnl fun j => { j with clr := none }).complete r.1 r.2.1 7 (if all then St.done else St.partial_)
        (left + 256 * leftB) r.2.2

/-! ### The Vent die's own events -/

/-- Not in boundary-scan mode (R459). -/
def Dev.functional (d : Dev) : Bool := d.vent.scan.isNone

/-- A short-circuit condition passes its filter (R106, R107). -/
def Dev.vdsEvent (d : Dev) (l : Nat) (high : Bool) (stamp : Nat) : Dev :=
  if ((d.vent.leg l).gate high).sees d.clk.now && !d.vent.inReset && d.functional then
    d.modVent fun v => (v.vds d.clk.now l high stamp).brakesUpdate d.clk.now
  else d

/-- A short detection on a brake leg; its gate is on, or its filter still runs (R106, R112). -/
def Dev.brakeShortEvent (d : Dev) (b stamp : Nat) : Dev :=
  let g := d.vent.brake b
  if !d.vent.inReset && (g.gate || match g.offAt with
      | none => false
      | some t => decide (d.clk.now ≤ t + 16)) then
    d.modVent fun v => v.brakeShort d.clk.now b stamp
  else d

/-- Blanking ends (R106): a condition still present is detected; one already gone counts in BLKCNT. A gate that has been on
for less than its blanking is never checked. -/
def Dev.blankEnd (d : Dev) (l : Nat) (high present : Bool) (stamp : Nat) : Dev :=
  if l < 24 then
    if !((d.vent.leg l).gate high).on then d
    else if present then d.vdsEvent l high stamp
    else d.modVent fun v => v.modLeg l fun g => { g with blkcnt := satAdd 16 g.blkcnt 1 }
  else if present && (d.vent.brake (l - 24)).gate then d.brakeShortEvent (l - 24) stamp else d

/-- Bootstrap undervoltage while the high gate is on (R105). -/
def Dev.bstuvEvent (d : Dev) (l : Nat) : Dev :=
  if (d.vent.leg l).h.on && d.functional then
    d.modVent fun v => (v.bstuv d.clk.now l).brakesUpdate d.clk.now
  else d

/-- An asserted trip line passes its filter (R110). -/
def Dev.tripEvent (d : Dev) (k : Nat) : Dev :=
  if d.tripLine k && !d.vent.inReset then
    d.modVent fun v => (v.trip d.clk.now k).brakesUpdate d.clk.now
  else d

/-- Both commands of a leg are high at once (R86): the lines of its leg unit stand high until an edge lowers one. DEDUCED
(log entry 71, unsafe): XLOCK rises with the turn-off. -/
def Dev.interlock (d : Dev) (l : Nat) : Dev :=
  if (d.vent.axis (axisOf l)).st = .run then
    let d := d.modLeg (d.lineUnit l) fun u => { u with hcmd := true, lcmd := true, pend := none, lowSeen := true }
    (d.lineLegs (d.lineUnit l)).foldl (fun d m =>
      if (d.vent.axis (axisOf m)).st = .run then
        d.modVent fun v => v.modLeg m fun g => g.linesUp d.clk.now (v.dt m) true true
      else d) d
  else d

/-- A refresh sequence of a Vent-applied SHORT_HIGH begins, at its time after the stop (R92). It opens a new carrier: an
inhibited high gate is free again, unless BSTUV holds it off (R104, R105). -/
def Dev.shortHighRefresh (d : Dev) (l : Nat) : Dev :=
  let a := d.vent.axis (axisOf l)
  let g := d.vent.leg l
  if a.st = .safe ∧ a.act = .shortHigh ∧ g.ref = .off then
    let d := d.toCycle (d.vent.refreshAt l)
    d.modVent fun v => v.modLeg l fun g => { g with
      h := g.h.off d.clk.now false, inh := g.bstuv, ref := .lowWait, refs := g.refs + 1
      pend := some false, pendAt := d.clk.now + v.dt l }
  else d

/-- The bus comparator of a brake leg (R93). -/
def Dev.comparator (d : Dev) (b : Nat) (above : Bool) : Dev :=
  if d.vent.brakeLive b && (d.vent.brake b).cmp != above then
    d.modVent fun v => (v.modBrake b fun g => { g with
      cmp := above, clamps := if above then satAdd 16 g.clamps 1 else g.clamps }).brakeUpdate d.clk.now b
  else d

/-- The hold after a brake short ends, 10 µs after its turn-off (R112). -/
def Dev.holdEnd (d : Dev) (b : Nat) : Dev :=
  let d := if (d.vent.brake b).hold then d.toCycle ((d.vent.brake b).offAt.getD 0 + 4000) else d
  d.modVent fun v => (v.modBrake b fun g => { g with hold := false }).brakeUpdate d.clk.now b

/-- A brake gate turns on at the end of its minimum off time if it is called for (R96). -/
def Dev.brakeOn (d : Dev) (b : Nat) : Dev :=
  let g := d.vent.brake b
  if d.vent.brakeWant b && !g.gate && !g.hold then
    let d := d.toCycle (d.vent.brakeFreeAt b)
    d.modVent fun v => v.brakeUpdate d.clk.now b
  else d

/-- A VDRV monitor changes (R101); the monitors watch VDRV also while the die holds itself in reset. -/
def Dev.vdrvMonitor (d : Dev) (high active : Bool) : Dev :=
  d.modVent fun v => if high then { v with vhigh := active } else { v with vlow := active }

/-- VDRV falls below its undervoltage lockout: the Vent die resets, whatever it does (R102). -/
def Dev.uvlo (d : Dev) : Dev := d.modVent fun v => { Vent.reset with vlow := v.vlow, vhigh := v.vhigh }

/-- The Vent die leaves its reset: SAFE, no configuration, VRST = 1 (R15, R102); scan mode resumes (R461). -/
def Dev.ventRelease (d : Dev) : Dev :=
  if d.vent.inReset then (d.modVent fun v => { v with inReset := false }).scanFollow else d

/-! ### Meanings -/

/-- LINKDOWN (R413). -/
def execLinkdown (s : State) : Host.Outcome State Fault Refusal := s.lift Dev.linkdownRx
/-- GATE_TURN_ON (R81, R96, R104). -/
def execGateTurnOn (leg : Fin 28) (high : Bool) (bstMv : Nat) (early : Bool) (s : State) : Host.Outcome State Fault Refusal :=
  s.lift fun d => if leg.val < 24 then d.gateOn leg high bstMv early else d.brakeOn (leg.val - 24)
/-- PWM_COMMAND_EDGE (R81, R90, R95). -/
def execPwmCommandEdge (leg : Fin 28) (edge : PwmEdge) (s : State) : Host.Outcome State Fault Refusal :=
  s.lift fun d => if leg.val < 24 then d.legEdge leg edge else d.brakeEdge (leg.val - 24) edge
/-- CARRIER_BOUNDARY (R80). -/
def execCarrierBoundary (leg : Fin 24) (s : State) : Host.Outcome State Fault Refusal := s.lift fun d => d.halfCarrier leg
/-- CROSS_CONDUCTION_INTERLOCK (R86). -/
def execCrossConductionInterlock (leg : Fin 24) (s : State) : Host.Outcome State Fault Refusal := s.lift fun d => d.interlock leg
/-- SHORT_HIGH_REFRESH (R92). -/
def execShortHighRefresh (leg : Fin 24) (s : State) : Host.Outcome State Fault Refusal := s.lift fun d => d.shortHighRefresh leg
/-- BRAKE_COMPARATOR_ON (R93). -/
def execBrakeComparatorOn (lb : Fin 4) (s : State) : Host.Outcome State Fault Refusal := s.lift fun d => d.comparator lb true
/-- BRAKE_COMPARATOR_OFF (R93). -/
def execBrakeComparatorOff (lb : Fin 4) (s : State) : Host.Outcome State Fault Refusal := s.lift fun d => d.comparator lb false
/-- VDS_DETECTION (R107). -/
def execVdsDetection (leg : Fin 24) (high : Bool) (stamp : Nat) (s : State) : Host.Outcome State Fault Refusal :=
  s.lift fun d => d.vdsEvent leg high stamp
/-- BLANKING_END (R106). -/
def execBlankingEnd (leg : Fin 28) (high present : Bool) (stamp : Nat) (s : State) : Host.Outcome State Fault Refusal :=
  s.lift fun d => d.blankEnd leg high present stamp
/-- BRAKE_SHORT_DETECTION (R112). -/
def execBrakeShortDetection (lb : Fin 4) (stamp : Nat) (s : State) : Host.Outcome State Fault Refusal :=
  s.lift fun d => d.brakeShortEvent lb stamp
/-- BRAKE_SC_HOLD_END (R112). -/
def execBrakeScHoldEnd (lb : Fin 4) (s : State) : Host.Outcome State Fault Refusal := s.lift fun d => d.holdEnd lb
/-- BSTUV (R105). -/
def execBstuv (leg : Fin 24) (s : State) : Host.Outcome State Fault Refusal := s.lift fun d => d.bstuvEvent leg
/-- TRIP_LINE (R110). -/
def execTripLine (axis : Fin 8) (s : State) : Host.Outcome State Fault Refusal := s.lift fun d => d.tripEvent axis
/-- VDRV_MONITOR (R101). -/
def execVdrvMonitor (high active : Bool) (s : State) : Host.Outcome State Fault Refusal := s.lift fun d => d.vdrvMonitor high active
/-- VDRV_UVLO (R102). -/
def execVdrvUvlo (s : State) : Host.Outcome State Fault Refusal := s.lift Dev.uvlo
/-- VENT_RESET_RELEASE (R102). -/
def execVentResetRelease (s : State) : Host.Outcome State Fault Refusal := s.lift Dev.ventRelease
/-- VENT_HEARTBEAT_RX (R417). -/
def execVentHeartbeatRx (crcOk : Bool) (vdrv : BitVec 10) (iFrame : Nat) (s : State) : Host.Outcome State Fault Refusal :=
  s.lift fun d => d.heartbeatRx crcOk vdrv.toNat iFrame
/-- HEARTBEAT_TIMEOUT (R16). -/
def execHeartbeatTimeout (s : State) : Host.Outcome State Fault Refusal := s.lift Dev.heartbeatLoss
/-- STATUS_PACKET (R423). -/
def execStatusPacket (crcOk : Bool) (s : State) : Host.Outcome State Fault Refusal := s.lift fun d => d.statusRx crcOk
/-- STATUS_PACKET_TIMEOUT (R424). -/
def execStatusPacketTimeout (s : State) : Host.Outcome State Fault Refusal := s.lift Dev.statusLate
/-- STOP_PACKET (R421). -/
def execStopPacket (axis : Fin 8) (s : State) : Host.Outcome State Fault Refusal := s.lift fun d => d.stopRx axis
/-- DIODE_READING (R427). -/
def execDiodeReading (ok : Bool) (temp : BitVec 12) (s : State) : Host.Outcome State Fault Refusal :=
  s.lift fun d => if d.vent.inReset then d else d.modVent fun v => (v.diode d.clk.now ok temp.toInt).brakesUpdate d.clk.now
/-- THERMAL_READING_EXPIRY (R427). -/
def execThermalReadingExpiry (s : State) : Host.Outcome State Fault Refusal := s.lift Dev.thermalExpiry
/-- ARM_REQ (R418). -/
def execArmReq (axis : Fin 8) (n1 : BitVec 32) (s : State) : Host.Outcome State Fault Refusal :=
  s.lift fun d => d.armReqRx axis n1.toNat
/-- ARM_CHAL (R418). -/
def execArmChal (axis : Fin 8) (n1 n2 : BitVec 32) (s : State) : Host.Outcome State Fault Refusal :=
  s.lift fun d => d.armChalRx axis n1.toNat n2.toNat
/-- ARM_CONF (R418). -/
def execArmConf (axis : Fin 8) (n1 n2 : BitVec 32) (s : State) : Host.Outcome State Fault Refusal :=
  s.lift fun d => d.armConfRx axis n1.toNat n2.toNat
/-- ARM_ACK (R418). -/
def execArmAck (axis : Fin 8) (s : State) : Host.Outcome State Fault Refusal := s.lift fun d => d.armAckRx axis
/-- ARM_NAK (R419). -/
def execArmNak (axis : Fin 8) (reason : Fin 7) (s : State) : Host.Outcome State Fault Refusal :=
  s.lift fun d => d.armNakRx axis reason
/-- ARM_EXCHANGE_TIMEOUT (R418). -/
def execArmExchangeTimeout (s : State) : Host.Outcome State Fault Refusal := s.lift Dev.armTimeout
/-- FAULT_CLEAR_CONFIRM (R116). -/
def execFaultClearConfirm (s : State) : Host.Outcome State Fault Refusal := s.lift Dev.fclrConfirm
/-- VNT_FCLR_GO (R116). -/
def execVntFclrGo (w : Word) (s : State) : Host.Outcome State Fault Refusal := s.lift fun d => d.fclrGo w

end Sys2Proof.Machine
end

