-- ==== Sys2Proof/Machine/Adc.lean ====
section
/-! DEFINITION. ADC banks, channel correction, accumulators and fast trips (chapters 6 and 7). -/

namespace Sys2Proof.Machine

/-! ### Sequences (R123 to R131) -/

/-- SYNC of bank `b`: the even bank's in simultaneous and interleaved mode (R127). -/
def Dev.seqSync (d : Dev) (b : Nat) : Bool :=
  d.flag F.ADC_CTL_SYNC (if d.get F.ADC_CTL_MODE (b / 2 * 2) = 0 then b else b / 2 * 2)

/-- A bank starts its sequence at entry 0 (R136, R137). -/
def Dev.bankStart (d : Dev) (b : Nat) : Dev :=
  if 0 < d.seqLen b then
    (d.putB F.ADC_STAT_RUN b true).modBank b fun u => { u with started := true, pos := 0, slice := 0, restart := false }
  else d.modBank b fun u => { u with started := true }

/-- The banks at the tick: a waiting pair whose reference is good starts; with SYNC = 1 a running bank restarts at entry 0
after its open window (R127, R136). -/
def Dev.bankTick (d : Dev) (b : Nat) : Dev :=
  if !(d.bank b).started then
    if d.flag F.ADC_STAT_REFOK b then d.bankStart b else d
  else if d.flag F.ADC_STAT_RUN b && d.seqSync b then d.modBank b fun u => { u with restart := true }
  else d

/-! ### Slice estimates (R138 to R140) -/

/-- A change of CONV raises EV83. -/
def Dev.setConv (d : Dev) (b : Nat) (c : Bool) : Dev :=
  (d.putB F.ADC_STAT_CONV b c).raiseIf (c != d.flag F.ADC_STAT_CONV b) 83

/-- One slice estimate after a sample: a free value (log entry 24), with SKEW kept while HOLD stands (R139). -/
def Dev.sliceStep (d : Dev) (b : Nat) (raw : Int) (i : Nat) : Dev :=
  let w := d.reg ((F.ADC_SLC.nth i).at_ b)
  let w' := Config.sliceNext b i w raw d.free &&& 0xFFFFFFFFF#40
  let w' := if d.flag F.ADC_STAT_HOLD b then fput w' 24 12 (fget w 24 12) else w'
  (d.setReg ((F.ADC_SLC.nth i).at_ b) w').tick1

/-- The estimates of a bank after a sample: CONV after 2^18 samples without a change of an LSB (R138). -/
def Dev.estimate (d : Dev) (b : Nat) (raw : Int) : Dev :=
  let old := tabulate 4 fun i => d.reg ((F.ADC_SLC.nth i).at_ b)
  let d := if d.flag F.ADC_STAT_FROZEN b then d else d.each (List.range 4) fun i d => d.sliceStep b raw i
  let now := tabulate 4 fun i => d.reg ((F.ADC_SLC.nth i).at_ b)
  let n := if old = now then (d.bank b).still + 1 else 0
  let d := d.modBank b fun u => { u with still := min n (2 ^ 18) }
  if 2 ^ 18 ≤ n && !d.flag F.ADC_STAT_CONV b then d.setConv b true else d

/-- The slope window: HOLD while the raw code moves by less than 64 LSB over 2^16 samples (R139). -/
def Dev.slope (d : Dev) (b : Nat) (raw : Int) : Dev :=
  let u := d.bank b
  let lo := if u.slopeN = 0 then raw else min u.rawMin raw
  let hi := if u.slopeN = 0 then raw else max u.rawMax raw
  if 64 ≤ hi - lo then
    (d.putB F.ADC_STAT_HOLD b false).modBank b fun u => { u with slopeN := 0, rawMin := 0, rawMax := 0 }
  else if 2 ^ 16 ≤ u.slopeN + 1 then
    (d.putB F.ADC_STAT_HOLD b true).modBank b fun u => { u with slopeN := 0, rawMin := 0, rawMax := 0 }
  else d.modBank b fun u => { u with slopeN := u.slopeN + 1, rawMin := lo, rawMax := hi }

/-! ### Correction (R134, R141, R142) -/

/-- OFS and GAIN of a channel in force since the last tick (R142). -/
def Dev.corOf (d : Dev) (ch : Nat) : Word := tget regReset d.cor (0x1800 + ch)

/-- Steps 2 and 3 of R141, before the clamp. -/
def corrected (cor : Word) (gain : Nat) (r4 : Int) : Int :=
  floorDiv ((r4 - signed 12 (fget cor 0 12) * ((2 ^ gain : Nat) : Int)) * ((fget cor 12 16 : Nat) : Int)) 16384

/-- An overrange (R134). -/
def Dev.overrange (d : Dev) (b e : Nat) : Dev :=
  ((d.raiseIf (!d.flag F.ADC_STAT_OVR b) 81).putB F.ADC_STAT_OVR b true |>.put F.ADC_STAT_OVRENT b e).bump F.ADC_STAT_OVRCNT b

/-- A clamp of the corrected sample (R141). -/
def Dev.corClamp (d : Dev) (b e : Nat) : Dev :=
  (d.raiseIf (!d.flag F.ADC_STAT_CSAT b) 82).putB F.ADC_STAT_CSAT b true |>.put F.ADC_STAT_CSATENT b e

/-! ### Accumulators (R147, R151 to R154) -/

/-- The live set after a sample. -/
def AccUnit.add (u : AccUnit) (s : Int) : AccUnit :=
  { u with sum := u.sum + s, cnt := u.cnt + 1, min := Min.min u.min s, max := Max.max u.max s }

/-- The accumulators on the trip line of an accumulator's axis (R152): none for a pair that no axis owns, so FIRST is never set
on it (R154, log entry 34). -/
def Dev.lineAccs (d : Dev) (n : Nat) : List Nat :=
  let accs := fun (p : Nat) => (List.range 32).map fun i => 32 * p + i
  match d.axisOfPair (n / 32) with
  | none => []
  | some k =>
    if d.par k then accs (d.topo k).pair ++ accs (d.topo (k + 1)).pair
    else if d.parSec k then accs (d.topo (k - 1)).pair ++ accs (d.topo k).pair
    else accs (d.topo k).pair

/-- An accumulator holds TRIPH or TRIPL. -/
def Dev.tripped (d : Dev) (n : Nat) : Bool := d.flag F.ACC_TSTAT_TRIPH n || d.flag F.ACC_TSTAT_TRIPL n

/-- VAL and FIRST at the first crossing after both trip bits were 0 (R154). -/
def Dev.latchFirst (d : Dev) (n : Nat) (s : Int) : Dev :=
  let line := d.lineAccs n
  let d := (d.putI F.ACC_TSTAT_VAL n s).modAcc n fun u => { u with tripAt := d.clk.now }
  if line.isEmpty then d
  else if line.all fun m => !d.tripped m then d.putB F.ACC_TSTAT_FIRST n true
  else match line.find? fun m => d.flag F.ACC_TSTAT_FIRST m with
    | none => d
    | some m =>
      if (d.acc m).tripAt = d.clk.now ∧ n < m then (d.putB F.ACC_TSTAT_FIRST m false).putB F.ACC_TSTAT_FIRST n true
      else d

/-- FIRST and VAL as they stood before a write of this core cycle cleared the latches (R158). -/
def Dev.clearedNow (d : Dev) (n : Nat) : Option (Nat × Nat) :=
  match (d.acc n).cleared with
  | none => none
  | some (t, first, val) => if t = d.clk.now then some (first, val) else none

/-- A crossing latches: VAL and FIRST, then the bit, with the pair's event when the bit was 0. One that meets a write that
clears the latches in the same core cycle leaves VAL and FIRST as they stood (R158). -/
def Dev.latchTrip (d : Dev) (n : Nat) (f : Fld) (s : Int) : Dev :=
  let d := if d.tripped n then d
    else match d.clearedNow n with
      | some (first, val) => (d.put F.ACC_TSTAT_FIRST n first).put F.ACC_TSTAT_VAL n val
      | none => d.latchFirst n s
  (d.raiseIf (!d.flag f n) (84 + n / 32)).putB f n true

/-- The trip comparison of one sample (R151). -/
def Dev.compare (d : Dev) (n : Nat) (s : Int) : Dev :=
  let hi := d.flag F.ACC_TRIP_HIEN n && decide (d.getI F.ACC_TRIP_THI n < s)
  let lo := d.flag F.ACC_TRIP_LOEN n && decide (s < d.getI F.ACC_TRIP_TLO n)
  let d := if hi then d.latchTrip n F.ACC_TSTAT_TRIPH s else d
  let d := if lo then d.latchTrip n F.ACC_TSTAT_TRIPL s else d
  (d.modAcc n fun u => { u with out := hi || lo }).putB F.ACC_TSTAT_OUT n (hi || lo)

/-- FIRST and VAL read 0 once both trip bits are 0 (R154); `was` says that one of them stood before the write. -/
def Dev.tripCleared (d : Dev) (n : Nat) (was : Bool) : Dev :=
  if d.tripped n then d
  else
    let old := (d.clk.now, d.get F.ACC_TSTAT_FIRST n, d.get F.ACC_TSTAT_VAL n)
    let d := if was then d.modAcc n fun u => { u with cleared := some old } else d
    (d.put F.ACC_TSTAT_FIRST n 0).put F.ACC_TSTAT_VAL n 0

/-- The held set of one accumulator at the tick that ends frame `tag`; the live set is cleared (R18, R147, R149). -/
def Dev.accTick (d : Dev) (tag n : Nat) : Dev :=
  let u := d.acc n
  let d := d.setReg (F.ACC_HSUM.at_ n) (wordI u.sum)
  let d := (d.put F.ACC_HCNT_CNT n u.cnt).put F.ACC_HCNT_TAG n tag
  let d := (d.putI F.ACC_HMM_MIN n u.min).putI F.ACC_HMM_MAX n u.max
  d.modAcc n fun u => { u with sum := 0, cnt := 0, min := 32767, max := -32768 }

/-- RDAVG's result (R150), before the clamp to P32. -/
def frameMean (sum : Int) (cnt : Nat) (scale : Int) : Int := if cnt = 0 then 0 else floorDiv (sum * scale) (cnt * 256)

/-! ### Taps (R132, R159) -/

/-- A corrected sample of a feedback tap: two halves of one instant make a sample pair in the CORDIC pipeline. -/
def Dev.fbkTap (d : Dev) (u : Nat) (sin : Bool) (s : Int) (closed : Nat) : Dev :=
  d.modFbk u fun x => match x.half with
    | none => { x with half := some (sin, s, closed) }
    | some (sin', s', c') =>
      if sin' != sin ∧ c' = closed then
        { x with half := none, pipe := x.pipe ++ [if sin then (s, s', closed) else (s', s, closed)] }
      else { x with half := some (sin, s, closed) }

/-- The taps of an entry. -/
def Dev.taps (d : Dev) (b e : Nat) (s : Int) (opened closed : Nat) : Dev :=
  match d.axisOfPair (b / 2) with
  | none => d
  | some k =>
    let ch := d.entry F.ADC_SEQ_CH b e
    let d := if d.entry F.ADC_SEQ_FBT b e = 1 then d.fbkTap (d.topo k).fbk (ch == 10 * k + 7) s closed else d
    if d.entry F.ADC_SEQ_CMT b e = 1 && decide (10 * k + 3 ≤ ch ∧ ch < 10 * k + 6) then
      d.commSample k (ch - (10 * k + 3)) s opened closed
    else d

/-! ### A sample (R123) -/

/-- A corrected sample of entry `e` of bank `b`, whose raw code is `raw`, is due now: it was next in order, or it is the
first after a SYNC restart (R127). -/
def Dev.sampleDue (d : Dev) (b e : Nat) (opened : Int) : Bool :=
  let u := d.bank b
  d.awake && d.flag F.ADC_STAT_REFOK b && d.flag F.ADC_STAT_RUN b && decide (e < d.seqLen b) &&
  (if u.restart && decide ((d.clk.frameStart : Int) ≤ opened) then e == 0 else e == u.pos)

/-- ADC_SAMPLE. -/
def Dev.adcSample (d : Dev) (b e : Nat) (raw : Int) : Dev :=
  let closed := d.clk.now - 28
  let samp := d.entry F.ADC_SEQ_SAMP b e
  let opened : Int := (d.clk.now : Int) - 28 - samp
  if d.sampleDue b e opened then
    let u := d.bank b
    let fresh := u.restart && decide ((d.clk.frameStart : Int) ≤ opened)
    let ch := d.entry F.ADC_SEQ_CH b e
    let gain := d.entry F.ADC_SEQ_GAIN b e
    let est := d.reg ((F.ADC_SLC.nth (u.slice % 4)).at_ b)
    let x := corrected (d.corOf ch) gain (Config.corrected4 b gain est raw)
    let s := clampI (-32768) 32767 x
    let n := 16 * d.seqBank b + d.entry F.ADC_SEQ_DEST b e
    let d := if raw = -8192 ∨ raw = 8191 then d.overrange b e else d
    let d := if s = x then d else d.corClamp b e
    let d := (d.estimate b raw).slope b raw
    let d := d.modBank b fun u =>
      { u with pos := (e + 1) % d.seqLen b, slice := (u.slice + 1) % 4, restart := u.restart && !fresh }
    let d := (d.modAcc n fun u => u.add s).compare n s
    d.taps b e s opened.toNat closed
  else d

/-! ### References (R135 to R137, R166) -/

/-- The banks and accumulators of a pair. -/
def pairBanks (p : Nat) : List Nat := [2 * p, 2 * p + 1]
def pairAccs (p : Nat) : List Nat := (List.range 32).map fun i => 32 * p + i

/-- The reference of a pair is enabled: its ADC record has been written at the seal (R136). -/
def Dev.refEnabled (d : Dev) (p : Nat) : Bool := d.awake && (d.sys.sealed || d.img.sealing) && d.img.cur.pairs.testBit p

/-- REF_OK rises: the comparators release; a pair that had been running restarts at once (R137). -/
def Dev.refRise (d : Dev) (p : Nat) : Dev :=
  if d.refEnabled p && !d.flag F.ADC_STAT_REFOK (2 * p) then
    let d := d.each (pairBanks p) fun b d =>
      let d := d.putB F.ADC_STAT_REFOK b true
      if (d.bank b).started then d.bankStart b else d
    d.each (pairAccs p) fun n d => d.putB F.ACC_TSTAT_OUT n (d.acc n).out
  else d

/-- REFLOST of a pair, with EV80. -/
def Dev.refLost (d : Dev) (p : Nat) : Dev := (d.each (pairBanks p) fun b d => d.putB F.ADC_STAT_REFLOST b true).raise 80

/-- REF_OK falls, on the banks and accumulators: the pair stops and every comparator is held asserted (R137). -/
def Dev.refFallBanks (d : Dev) (p : Nat) : Dev :=
  let d := d.each (pairBanks p) fun b d => (d.putB F.ADC_STAT_REFOK b false).putB F.ADC_STAT_RUN b false
  let d := d.each (pairAccs p) fun n d => d.putB F.ACC_TSTAT_OUT n true
  d.refLost p

/-- The internal reference has not risen within 1 ms of enable (R136). -/
def Dev.refLate (d : Dev) (p : Nat) : Dev :=
  if d.refEnabled p && !d.flag F.ADC_STAT_REFOK (2 * p) && d.get F.ADC_CTL_REFSEL (2 * p) == 0 && !(d.bank (2 * p)).started then
    d.refLost p
  else d

/-! ### Control writes (R140, R143) -/

/-- A write of FREEZE. -/
def Dev.calFreeze (d : Dev) (b : Nat) (on : Bool) : Dev := (d.putB F.ADC_CAL_FREEZE b on).putB F.ADC_STAT_FROZEN b on

/-- The vendor trims of a bank's slices (R138, log entry 25). -/
def Dev.loadTrims (d : Dev) (b : Nat) : Dev :=
  d.each (List.range 4) fun i d =>
    d.setReg ((F.ADC_SLC.nth i).at_ b) (Config.vendorTrim ((F.ADC_SLC.nth i).at_ b) &&& 0xFFFFFFFFF#40)

/-- A write of RESTART. -/
def Dev.calRestart (d : Dev) (b : Nat) : Dev :=
  ((d.loadTrims b).setConv b false).modBank b fun u => { u with still := 0 }

/-- The axis that owns a channel (R1). -/
def axisOfCh (ch : Nat) : Option Nat := if ch < 80 then some (ch / 10) else none

/-- The warden is arming an axis, or it is next in the warden's list: its pulls have been set off (R143, R404). -/
def Dev.arming (d : Dev) (k : Nat) : Bool := d.jnl.toArm.contains k || d.link.arm.any fun x => x.axis.val == k

/-- A write of COR_DIAG (R143): `none` when it is refused. Arming comes before a write (R146). -/
def Dev.corDiag (d : Dev) (ch : Nat) (w : Word) : Option Dev :=
  let pull := fget w 0 2
  let busy := match axisOfCh ch with
    | none => false
    | some k => d.cst k != .safe || d.vst k != .safe || d.arming k
  if pull != 0 && (busy || pull == 3 || fget w 2 2 == 3) then none
  else some (d.setReg (F.COR_DIAG.at_ ch) (w &&& 0xF#40))

/-! ### Meanings -/

/-- ADC_SAMPLE (R123). -/
def execAdcSample (bank entry : Fin 16) (raw : BitVec 14) (t : Nat) (s : State) : Host.Outcome State Fault Refusal :=
  s.lift fun d => (d.at_ t).adcSample bank entry raw.toInt
/-- REF_OK_RISE (R135, R137). -/
def execRefOkRise (pair : Fin 8) (s : State) : Host.Outcome State Fault Refusal := s.lift fun d => d.refRise pair
/-- REF_LATE (R136). -/
def execRefLate (pair : Fin 8) (s : State) : Host.Outcome State Fault Refusal := s.lift fun d => d.refLate pair
/-- ADC_CAL_FREEZE (R140). -/
def execAdcCalFreeze (bank : Fin 16) (on : Bool) (s : State) : Host.Outcome State Fault Refusal :=
  s.lift fun d => if d.hostUp then d.calFreeze bank on else d
/-- ADC_CAL_RESTART (R140). -/
def execAdcCalRestart (bank : Fin 16) (s : State) : Host.Outcome State Fault Refusal :=
  s.lift fun d => if d.hostUp then d.calRestart bank else d
/-- COR_DIAG_WRITE (R143). -/
def execCorDiagWrite (ch : Fin 96) (w : Word) (s : State) : Host.Outcome State Fault Refusal :=
  s.lift fun d => if d.hostUp then d.hostWrite (F.COR_DIAG.at_ ch) (d.corDiag ch w) else d

end Sys2Proof.Machine
end

