-- ==== Sys2Proof/Machine/Flags.lean ====
section
/-! DEFINITION. The engine's flag word (R176, R204, R207, R208) and the narrowing steps that set flags (R201 ff.,
"Arithmetic conventions" of chapter 10). -/

namespace Sys2Proof.Machine

/-! ### The flag word -/

/-- One flag of a run. -/
def EngRun.flag (r : EngRun) (i : Nat) : Bool := r.flags.getLsbD i

/-- One flag of a run written. -/
def EngRun.setFlag (r : EngRun) (i : Nat) (b : Bool) : EngRun :=
  { r with flags := if b then r.flags ||| (1#16 <<< i) else r.flags &&& ~~~(1#16 <<< i) }

/-- Bit numbers of R176. -/
def fZ : Nat := 0
def fN : Nat := 1
def fC : Nat := 2
def fV : Nat := 3
def fSat : Nat := 4
def fCl : Nat := 5
def fPv : Nat := 6
def fPn : Nat := 7
def fAf : Nat := 8
def fImm : Nat := 9
def fOvr : Nat := 10
def fFr : Nat := 11

/-- ZN: from the value written (R207). -/
def EngRun.zn (r : EngRun) (v : Word) : EngRun := (r.setFlag fZ (v == 0#40)).setFlag fN (v.getLsbD 39)

/-- V=s: V follows the clamp, SAT is sticky (R204, R207). -/
def EngRun.vs (r : EngRun) (c : Bool) : EngRun :=
  let r := r.setFlag fV c
  if c then r.setFlag fSat true else r

/-- A clamp at a duty or IREF port: CL and SAT (R189, R190). -/
def EngRun.clampFlags (r : EngRun) (c : Bool) : EngRun := if c then (r.setFlag fCl true).setFlag fSat true else r

/-- The condition of a branch (R208). -/
def EngRun.cond (r : EngRun) (c : Nat) : Bool :=
  let z := r.flag fZ
  let n := r.flag fN
  match c with
  | 0 => true
  | 1 => z
  | 2 => !z
  | 3 => n
  | 4 => !n
  | 5 => !n && !z
  | 6 => n || z
  | 7 => r.flag fC
  | 8 => !r.flag fC
  | 9 => r.flag fV
  | 10 => !r.flag fV
  | 11 => r.flag fSat
  | 12 => r.flag fPv
  | 13 => !r.flag fPv
  | 14 => r.flag fFr
  | _ => r.flag fImm

/-! ### Narrowing -/

/-- sat(x), with whether it clamped. -/
def sat (x : Int) : Int × Bool := (satP32 x, satNeeded x)

/-- rnd(x, k): rounding half up. -/
def rnd (x : Int) (k : Nat) : Int := floorDiv (x + 2 ^ (k - 1)) (2 ^ k)

/-- fmul(a, b): the P32 product before saturation. -/
def fmul (a b : Int) : Int := rnd (a * b) 31

/-- Carry out of bit 39 of an unsigned sum (R216). -/
def carryOf (a b : Word) : Bool := decide (2 ^ 40 ≤ a.toNat + b.toNat)

/-- An integer outside the signed 40-bit range (R216). -/
def wraps40 (x : Int) : Bool := decide (x < -(2 ^ 39) ∨ 2 ^ 39 ≤ x)

end Sys2Proof.Machine
end

