-- ==== Sys2Proof/Machine/Operands.lean ====
section
/-! DEFINITION. Registers of an engine run and the operand forms of its instructions: unused fields, pairs, selects,
immediates, the second operand of logic and shifts, the program word and its opcode (R174, R201 to R204, R219, R220). -/

namespace Sys2Proof

/-! ### Fields (R201, R202) -/

/-- Field D. -/
def Issue.dn (i : Issue) : Nat := i.d.val
/-- Field A. -/
def Issue.an (i : Issue) : Nat := i.a.val
/-- Field B. -/
def Issue.bn (i : Issue) : Nat := i.b.val
/-- Field X, or its low bits. -/
def Issue.xn (i : Issue) : Nat := i.x.toNat
/-- Bit 21 of X. -/
def Issue.x21 (i : Issue) : Bool := i.x.getLsbD 21
/-- X as a 22-bit signed immediate. -/
def Issue.ximm (i : Issue) : Int := i.x.toInt
/-- Fields D, A and B are unused and 0. -/
def Issue.noD (i : Issue) : Bool := i.dn == 0
def Issue.noA (i : Issue) : Bool := i.an == 0
def Issue.noB (i : Issue) : Bool := i.bn == 0
/-- Bits [21:n] of X are unused and 0. -/
def Issue.xLow (i : Issue) (n : Nat) : Bool := decide (i.xn < 2 ^ n)
/-- A pair that starts at D or A. -/
def Issue.evenD (i : Issue) : Bool := i.dn % 2 == 0
def Issue.evenA (i : Issue) : Bool := i.an % 2 == 0

/-- The second operand of AND, OR and XOR is legal (R219). -/
def Issue.logicOk (i : Issue) : Bool := if i.x21 then i.noB else i.xLow 0

/-- The count of a shift is legal (R220). -/
def Issue.shiftOk (i : Issue) : Bool := if i.x21 then i.noB && decide (i.xn % 2 ^ 21 < 64) else i.xLow 0

/-- The registers read as the second operand of logic and shifts. -/
def Issue.secondSrc (i : Issue) : List Nat := if i.x21 then [] else [i.bn]

/-- The fields of LD and ST beyond the register are legal: pointer select in B, bits [20:16] of X unused. -/
def Issue.dataOk (i : Issue) : Bool := decide (i.bn < 4 ∧ i.xn % 2 ^ 21 < 65536)

/-- The fields of LDF and STF beyond the register are legal (R215). -/
def Issue.farOk (i : Issue) : Bool := decide (i.bn < 4 ∧ i.xn % 2 ^ 21 = 0)

/-- The program word of an instruction (R201): OP in [39:34], D, A, B and X below it. -/
def Issue.word (op : Nat) (i : Issue) : Word :=
  BitVec.ofNat 40 (op * 2 ^ 34 + i.dn * 2 ^ 30 + i.an * 2 ^ 26 + i.bn * 2 ^ 22 + i.xn)

end Sys2Proof

namespace Sys2Proof.Machine

/-- The selector of GETS and PUTS is legal. -/
def selOk (i : Issue) : Bool := i.xLow 4 && decide (i.xn < 10)

/-- The fields of an instruction word. -/
def issueOf (w : Word) : Issue :=
  { eng := 0, d := ⟨(w.toNat >>> 30) % 16, Nat.mod_lt _ (by decide)⟩, a := ⟨(w.toNat >>> 26) % 16, Nat.mod_lt _ (by decide)⟩,
    b := ⟨(w.toNat >>> 22) % 16, Nat.mod_lt _ (by decide)⟩, x := w.extractLsb' 0 22 }

/-- The fields of a listed opcode are legal, whatever the run's state. -/
def fieldsOk (op : Nat) (i : Issue) : Bool :=
  let none_ := i.noD && i.noA && i.noB && i.xLow 0
  let three := i.xLow 0
  let two := i.noB && i.xLow 0
  match op with
  | 0x01 => none_ | 0x02 => none_ | 0x05 => none_
  | 0x03 => i.noA && i.noB && i.xLow 16
  | 0x04 => i.noD && i.noA && i.noB && i.xLow 16
  | 0x06 => i.xLow 16
  | 0x08 => two
  | 0x09 => i.noA && i.noB
  | 0x0A => i.noA && i.noB && i.xLow 18
  | 0x0B => i.noA && i.noB && selOk i
  | 0x0C => i.noD && i.noB && selOk i
  | 0x0D => decide (i.dn < 4) && i.noA && i.noB && i.xLow 16
  | 0x10 => i.noA && i.dataOk
  | 0x11 => i.noD && i.dataOk
  | 0x12 => i.noA && i.farOk
  | 0x13 => i.noD && i.farOk
  | 0x14 => three | 0x15 => three | 0x17 => three | 0x18 => three | 0x1B => three | 0x1C => three | 0x1D => three
  | 0x16 => i.noB
  | 0x19 => two | 0x1A => two
  | 0x1E => i.noD && three
  | 0x20 => three
  | 0x21 => decide (i.dn < 2) && i.xLow 1
  | 0x22 => decide (i.dn < 2) && i.xLow 1
  | 0x23 => decide (i.an < 2) && i.noB && i.xLow 4
  | 0x24 => decide (i.dn < 2) && two
  | 0x28 => i.logicOk | 0x29 => i.logicOk | 0x2A => i.logicOk
  | 0x2B => i.shiftOk | 0x2C => i.shiftOk | 0x2D => i.shiftOk
  | 0x30 => i.evenD && i.noA && three
  | 0x31 => i.evenD && two
  | 0x32 => i.evenD && three
  | 0x33 => i.evenD && i.xLow 1 && (i.xn % 2 == 0 || decide (i.bn < 15))
  | 0x34 => i.evenD && i.evenA && three
  | 0x35 => i.evenD && i.evenA && three
  | 0x36 => i.dn % 4 == 0 && i.evenA && two
  | 0x37 => decide (i.bn < 4) && i.xLow 12
  | 0x38 => i.noA && i.noB && i.xLow 10
  | 0x39 => i.noD && i.noB && i.xLow 10
  | 0x3A => i.noA && i.noB && i.xLow 10
  | 0x3B => i.noA && i.noB && i.xLow 10
  | 0x3C => i.noD && i.noB && i.xLow 10
  | 0x3D => i.noB && i.xLow 10
  | 0x3E => i.noA && two
  | _ => false

/-- The OP column of the opcode table (R204), 0 for a command that is no instruction. -/
def opcodeOf : Instr → Nat
  | .nop _ => 0x01
  | .halt _ => 0x02
  | .br _ => 0x03
  | .call _ => 0x04
  | .ret _ => 0x05
  | .loopi _ => 0x06
  | .mov _ => 0x08
  | .ldi _ => 0x09
  | .ldih _ => 0x0A
  | .gets _ => 0x0B
  | .puts _ => 0x0C
  | .pset _ => 0x0D
  | .ld _ => 0x10
  | .st _ => 0x11
  | .ldf _ _ => 0x12
  | .stf _ _ => 0x13
  | .add _ => 0x14
  | .sub _ => 0x15
  | .addi _ => 0x16
  | .adds _ => 0x17
  | .subs _ => 0x18
  | .negs _ => 0x19
  | .satp _ => 0x1A
  | .min_ _ => 0x1B
  | .max_ _ => 0x1C
  | .clamp _ => 0x1D
  | .cmp _ => 0x1E
  | .muls _ => 0x20
  | .mul _ => 0x21
  | .mac _ => 0x22
  | .zrd _ => 0x23
  | .zld _ => 0x24
  | .and_ _ => 0x28
  | .or_ _ => 0x29
  | .xor_ _ => 0x2A
  | .shl _ => 0x2B
  | .shr _ => 0x2C
  | .sar _ => 0x2D
  | .divstep _ => 0x30
  | .trig _ => 0x31
  | .atan2 _ => 0x32
  | .clarke _ => 0x33
  | .park _ => 0x34
  | .ipark _ => 0x35
  | .svm _ => 0x36
  | .pistep _ => 0x37
  | .in_ _ => 0x38
  | .out _ => 0x39
  | .rdavg _ => 0x3A
  | .rdpos _ => 0x3B
  | .wrduty _ => 0x3C
  | .wriref _ => 0x3D
  | .rdceil _ => 0x3E
  | _ => 0

/-- The instruction that an opcode names (R204), with the fields of its word and, for a far access, whether it wins
arbitration. -/
def instrOf (op : Nat) (i : Issue) (won : Bool) : Option Instr :=
  match op with
  | 0x01 => some (.nop i)
  | 0x02 => some (.halt i)
  | 0x03 => some (.br i)
  | 0x04 => some (.call i)
  | 0x05 => some (.ret i)
  | 0x06 => some (.loopi i)
  | 0x08 => some (.mov i)
  | 0x09 => some (.ldi i)
  | 0x0A => some (.ldih i)
  | 0x0B => some (.gets i)
  | 0x0C => some (.puts i)
  | 0x0D => some (.pset i)
  | 0x10 => some (.ld i)
  | 0x11 => some (.st i)
  | 0x12 => some (.ldf i won)
  | 0x13 => some (.stf i won)
  | 0x14 => some (.add i)
  | 0x15 => some (.sub i)
  | 0x16 => some (.addi i)
  | 0x17 => some (.adds i)
  | 0x18 => some (.subs i)
  | 0x19 => some (.negs i)
  | 0x1A => some (.satp i)
  | 0x1B => some (.min_ i)
  | 0x1C => some (.max_ i)
  | 0x1D => some (.clamp i)
  | 0x1E => some (.cmp i)
  | 0x20 => some (.muls i)
  | 0x21 => some (.mul i)
  | 0x22 => some (.mac i)
  | 0x23 => some (.zrd i)
  | 0x24 => some (.zld i)
  | 0x28 => some (.and_ i)
  | 0x29 => some (.or_ i)
  | 0x2A => some (.xor_ i)
  | 0x2B => some (.shl i)
  | 0x2C => some (.shr i)
  | 0x2D => some (.sar i)
  | 0x30 => some (.divstep i)
  | 0x31 => some (.trig i)
  | 0x32 => some (.atan2 i)
  | 0x33 => some (.clarke i)
  | 0x34 => some (.park i)
  | 0x35 => some (.ipark i)
  | 0x36 => some (.svm i)
  | 0x37 => some (.pistep i)
  | 0x38 => some (.in_ i)
  | 0x39 => some (.out i)
  | 0x3A => some (.rdavg i)
  | 0x3B => some (.rdpos i)
  | 0x3C => some (.wrduty i)
  | 0x3D => some (.wriref i)
  | 0x3E => some (.rdceil i)
  | _ => none

/-! ### Registers (R174) -/

/-- Work register Wn. -/
def EngRun.W (r : EngRun) (n : Nat) : Word := uget r.w n

/-- Work register Wn written. -/
def EngRun.setW (r : EngRun) (n : Nat) (v : Word) : EngRun := { r with w := uset r.w n v }

/-- Work register Wn as a signed operand. -/
def EngRun.WI (r : EngRun) (n : Nat) : Int := (r.W n).toInt

/-- Pointer Pn. -/
def EngRun.P (r : EngRun) (n : Nat) : Nat := uget r.p n

/-- Pointer Pn written, modulo 65,536. -/
def EngRun.setP (r : EngRun) (n v : Nat) : EngRun := { r with p := uset r.p n (v % 65536) }

/-- Accumulator Zn. -/
def EngRun.Z (r : EngRun) (n : Nat) : BitVec 88 := if n = 0 then r.z0 else r.z1

/-- Accumulator Zn written. -/
def EngRun.setZ (r : EngRun) (n : Nat) (v : BitVec 88) : EngRun := if n = 0 then { r with z0 := v } else { r with z1 := v }

/-- Post-increment of a pointer (R214, R215). -/
def EngRun.postInc (r : EngRun) (n : Nat) (inc : Bool) : EngRun := if inc then r.setP n (r.P n + 1) else r

/-- The second operand of AND, OR and XOR (R219). -/
def EngRun.logicArg (r : EngRun) (i : Issue) : Word := if i.x21 then wordN (i.xn % 2 ^ 21) else r.W i.bn

/-- The count of a shift (R220). -/
def EngRun.shiftArg (r : EngRun) (i : Issue) : Nat := if i.x21 then i.xn % 64 else (r.W i.bn).toNat % 64

/-- LD's address (R214): pointer plus signed offset, modulo 65,536. -/
def EngRun.dataAddr (r : EngRun) (i : Issue) : Nat := (r.P i.bn + i.xn % 65536) % 65536

/-! ### Retirement (R210) -/

/-- The program counter after an instruction that does not transfer control, with the loop test at the end address. -/
def EngRun.next (r : EngRun) : EngRun :=
  match r.loop with
  | none => { r with pc := r.pc + 1 }
  | some l =>
    if r.pc = l.stop ∧ r.stack.length = l.depth then
      if 1 < r.lc then { r with lc := r.lc - 1, pc := l.start } else { r with lc := 0, loop := none, pc := r.pc + 1 }
    else { r with pc := r.pc + 1 }

/-- A target lies in the body of the loop. -/
def Loop.holds (l : Loop) (t : Nat) : Bool := decide (l.start ≤ t ∧ t ≤ l.stop)

/-- A taken BR (R209, R210). -/
def EngRun.branch (r : EngRun) (t : Nat) : EngRun :=
  let keep := match r.loop with
    | none => true
    | some l => r.stack.length != l.depth || l.holds t
  { r with pc := t, loop := if keep then r.loop else none }

/-- A RET with its target popped (R209, R210). -/
def EngRun.ret (r : EngRun) (t : Nat) (rest : List Nat) : EngRun :=
  let keep := match r.loop with
    | none => true
    | some l => r.stack.length != l.depth && (rest.length != l.depth || l.holds t)
  { r with pc := t, stack := rest, loop := if keep then r.loop else none }

end Sys2Proof.Machine
end

