-- ==== Sys2Proof/Machine/Reserve.lean ====
section
/-! DEFINITION. Grants over time: the service of a request, the end of a burst of the host port or a CAN DMA channel, and the
release and the cut-off of a reservation (R323 to R325, R329 to R333). -/

namespace Sys2Proof.Machine

/-! ### Grants (R323 to R325) -/

/-- Time passes until the bank has granted a request that `p` admits, over `n` arbitrations at most. -/
def Dev.untilGranted (d : Dev) (b : Nat) (p : Req → Bool) : Nat → Dev
  | 0 => d
  | n + 1 =>
    if (d.grantOf b p).isSome then d
    else match d.nextArb b with
      | none => d
      | some a => (d.toCycle (a + 1)).untilGranted b p n

/-- The request that `p` admits, once the bank has granted it. -/
def Dev.granted (d : Dev) (b : Nat) (p : Req → Bool) : Dev × Option Req :=
  if (d.queue b).any p then
    let x := d.untilGranted b p d.waits
    (x, x.grantOf b p)
  else (d, none)

/-- A grant runs to its last data cycle, and its request ends. -/
def Dev.grantEnds (d : Dev) (b : Nat) (r : Req) : Dev :=
  (d.toCycle (r.at_.getD 0 + (r.length - 1))).leaveQueue b fun x => x == r

/-- A burst of Q12 to Q16 ends: the bank stays parked on its requester while nothing else waits (R325). -/
def Dev.burstEnds (d : Dev) (b : Nat) (r : Req) : Dev :=
  let d := d.grantEnds b r
  d.park b (if d.candidates b = [] then some r.req else none)

/-- A grant of `q` is held from cycle `t` to the hold limit, HOLDMAX cycles on, and revoked (R331). -/
def Dev.heldOut (d : Dev) (b q t : Nat) : Dev :=
  let n := t + d.get F.CON_HOLD_HOLDMAX
  ((d.setBusy b t n).toCycle n).noteCutOff q

/-- The hold limit of the granted request of `q`: it leaves. -/
def Dev.grantCut (d : Dev) (b q : Nat) (r : Req) : Dev := (d.heldOut b q (r.at_.getD 0)).leaveQueue b fun x => x == r

/-- Time passes until M15 grants the next word of an engine's checkpoint burst, over `n` arbitrations at most; the first data cycle
of that grant. -/
def Dev.untilWord (d : Dev) (e : Nat) : Nat → Dev × Option Nat
  | 0 => (d, none)
  | n + 1 => match d.nextArb 15, d.conPick 15 with
    | some a, some r => if r.kind == .word && r.req == e then (d.toCycle a, some (a + 1)) else (d.toCycle (a + 1)).untilWord e n
    | _, _ => (d, none)

/-- The hold limit of a checkpoint burst: the grant of its next word is revoked, and the burst is cut short (R196, R331). -/
def Dev.burstCutOff (d : Dev) (e : Nat) : Dev :=
  match (d.eng e).burst with
  | none => d
  | some _ =>
    let x := d.untilWord e d.waits
    match x.2, (x.1.eng e).burst with
    | some t, some y =>
      let d := if y.next = 0 then x.1.clearHalf y else x.1
      (d.cutBurst e).heldOut 15 e t
    | _, _ => d

/-! ### Reservations (R329, R331, R333) -/

/-- A reservation waits until it has acquired its banks, over `n` arbitrations at most. -/
def Dev.awaitBanks (d : Dev) (q : Nat) : Nat → Dev
  | 0 => d
  | n + 1 => match d.resvOf q with
    | none => d
    | some r => match r.banks with
      | [] => d
      | b :: _ => match d.nextArb b with
        | none => d
        | some a => (d.toCycle (a + 1)).awaitBanks q n

/-- RESERVATION_RELEASE: a reservation that holds its banks is released, and its staged writes are applied (R333). -/
def Dev.release (d : Dev) (q : Nat) : Dev :=
  let d := d.awaitBanks q d.waits
  match d.resvOf q with
  | none => d
  | some r => if r.banks = [] then (d.dropResv q).conWrites r.staged else d

/-- The hold limit of a reservation (R331): it is revoked at the end of HOLDMAX cycles from its first acquisition and writes
nothing. -/
def Dev.cutOff (d : Dev) (q : Nat) : Dev :=
  let d := d.awaitBanks q 1
  match d.resvOf q with
  | none => d
  | some r => match r.from_ with
    | none => d
    | some t => ((d.toCycle (t + d.get F.CON_HOLD_HOLDMAX)).dropResv q).noteCutOff q

end Sys2Proof.Machine
end

