-- ==== Sys2Proof/Machine/Engine.lean ====
section
/-! DEFINITION. Engines and their runs (chapter 9): which engine serves an axis, access faults, memory errors, the ends
of a run, promotion triggers, and the issue of one instruction. -/

namespace Sys2Proof.Machine

/-! ### Engines and axes (R177, R185, R281, R286) -/

/-- The axis that TOPOLOGY binds to a primary engine. -/
def Dev.boundAxis (d : Dev) (e : Nat) : Option Nat := (List.range 8).find? fun k => d.primary k && (d.topo k).engine == e

/-- A reserve is free (R275). -/
def Dev.freeRes (d : Dev) (e : Nat) : Bool := d.holds e == 8 && !d.fenced e

/-- The word of data memory that an address of the run's program reaches (R177). -/
def EngRun.dataIdx (r : EngRun) (e a : Nat) : Nat := if e < 8 then a else 4096 * r.prog + a

/-- A word of data memory. -/
def Dev.dmem (d : Dev) (e a : Nat) : Word := uget (d.eng e).dmem ((d.eng e).run.dataIdx e a)

/-- A word of data memory written. -/
def Dev.setDmem (d : Dev) (e a : Nat) (w : Word) : Dev :=
  d.modEng e fun u => { u with dmem := uset u.dmem (u.run.dataIdx e a) w }

/-- What the image declares of the program that engine `e` runs. -/
def Dev.runProg (d : Dev) (e : Nat) : Prog := uget d.img.cur.progs (d.eng e).run.prog

/-- The program word at the run's program counter (R177, R201). -/
def Dev.pword (d : Dev) (e : Nat) : Word :=
  let r := (d.eng e).run
  uget (d.eng e).pmem (if e < 8 then r.pc else 8192 * r.prog + r.pc)

/-! ### Faults and errors within a run (R178, R186) -/

/-- An access fault of the instruction at `pc`: AF, and for the first one of the run its record and EV96. -/
def Dev.accessFaultAt (d : Dev) (e pc port kind : Nat) : Dev :=
  let r := (d.eng e).run
  let d := d.putB F.ENG_STAT_AF e true
  let d := if r.faulted then d
    else (((d.put F.ENG_AFLT_PC e pc).put F.ENG_AFLT_PORT e port).put F.ENG_AFLT_KIND e kind).raise 96
  d.modRun e fun r => { r.setFlag fAf true with faulted := true }

/-- An access fault of the instruction that issues. -/
def Dev.accessFault (d : Dev) (e port kind : Nat) : Dev := d.accessFaultAt e (d.eng e).run.pc port kind

/-- A corrected error of an engine memory. On a reserve the record shows the address as its program sees it (DESIGN CHOICE, log
entry 88). -/
def Dev.engCorrected (d : Dev) (e a : Nat) (data : Bool) : Dev :=
  (((d.bump F.ENG_ECC_SCNT e).put F.ENG_ECC_ADDR e a).putB F.ENG_ECC_MEM e data |>.putB F.ENG_STAT_SECC e true).raise 97

/-- An item of a run's output stream (R277), newest first. -/
def EngRun.out_ (r : EngRun) (k : ItemKind) (a : Nat) (w : Word) : EngRun :=
  { r with items := { kind := k, addr := a, value := w } :: r.items }

/-! ### Promotion triggers (R280) -/

/-- A trigger of an engine that serves an axis, or of a primary whose axis is stranded or disabled (R287); one trigger of an
engine waits at a time, and beside a patrol mismatch one of another cause. `res` is the reserve of a mismatch. -/
def Dev.trigger (d : Dev) (e cause : Nat) (res : Option Nat := none) : Dev :=
  if ((d.servedBy e).isSome || (d.sys.sealed && decide (e < 8) && !d.fenced e)) &&
      !d.patrol.trig.any fun t => t.eng == e && (t.res.isNone || res.isSome) then
    d.modPat fun p => { p with trig := p.trig ++ [{ eng := e, cause := cause, at_ := d.clk.now, res := res }] }
  else d

/-! ### The ends of a run (R180 to R184, R234) -/

/-- ENG_STAT.STATE of an engine without a run: a reserve that holds an axis shows RUN (R281). -/
def Dev.restState (d : Dev) (e : Nat) : Nat := if d.fenced e then 3 else if 8 ≤ e ∧ d.holds e ≠ 8 then 1 else 0

/-- A run is over: parked requests are withdrawn and the flag word is shown. A takeover run that has written no duty has no
interruption time (R285; log entry 50). -/
def Dev.closeRun (d : Dev) (e : Nat) (how : RunEnd) : Dev :=
  let r := (d.eng e).run
  let d := d.withdraw e
  let d := d.modRun e fun r => { r with live := false, ended := how, far := [], served := [], stalled := false, full := none }
  let d := if r.kind = .takeover then d.modPat fun p => { p with fresh := p.fresh.filter fun x => x.1 != e } else d
  ((d.put F.ENG_STAT_FLAGS e r.flags.toNat).put F.ENG_STAT_STATE e (d.restState e)).putB F.ENG_STAT_IMM e false

/-- An uncorrectable error of an engine memory ends the run (R178). -/
def Dev.engFatal (d : Dev) (e a : Nat) (data : Bool) : Dev :=
  let serves := (d.eng e).run.kind != .shadow
  let d := ((d.putB F.ENG_STAT_DECC e true).put F.ENG_ECC_ADDR e a).putB F.ENG_ECC_MEM e data
  let d := d.closeRun e .ecc
  if serves then d.trigger e 1 else d

/-- The outputs of a run return to what they were at its start (R182). -/
def Dev.restoreOutputs (d : Dev) (e : Nat) : Dev :=
  let r := (d.eng e).run
  let d := r.savedLegs.foldl (fun d p => (d.setReg (F.LEG_SDUTY.at_ p.1) p.2.1).modLeg p.1 fun u => { u with written := p.2.2 }) d
  let d := r.savedBrakes.foldl (fun d p => d.modBrk p.1 fun u => { u with next := p.2.1, wrote := p.2.2 }) d
  r.savedRegs.foldl (fun d p => d.setReg p.1 p.2) d

/-- The counts of one overrun of an axis and the stop that follows (R182, R183, R267). -/
def Dev.countOverrun (d : Dev) (e k cause : Nat) (hw : Bool) : Dev :=
  let n := min (d.get F.ENG_OVR_CONSEC e + 1) 3
  let d := ((d.put F.ENG_OVR_CAUSE e cause).putB F.ENG_OVR_HW e hw).bump F.ENG_OVR_COUNT e
  let d := ((d.put F.ENG_OVR_CONSEC e n).raise (8 * k + 6)).modAxis k fun a => { a with ovr := true }
  if (d.comm k).ramp.isSome then d.finishRamp k 5
  else if n = 3 ∧ d.cst k = .run then d.requestStop k
  else d

/-- A run ends as an overrun. A shadow run only ends. -/
def Dev.overrun (d : Dev) (e cause : Nat) : Dev :=
  let r := (d.eng e).run
  let hw := r.hang || r.parity
  if r.kind = .shadow then d.closeRun e .overrun
  else
    let d := (d.restoreOutputs e).closeRun e .overrun
    let d := d.countOverrun e r.axis.val cause hw
    if hw then d.trigger e 4 else d

/-- A run completes: HALT has retired. -/
def Dev.completeRun (d : Dev) (e : Nat) : Dev :=
  let r := (d.eng e).run
  let last := min r.cyc 65535
  let d := (d.put F.ENG_RUN_LAST e last).put F.ENG_RUN_MAX e (max last (d.get F.ENG_RUN_MAX e))
  let d := d.modRun e fun r => r.out_ .done 0 (wordN (fget (wordN r.flags.toNat) 4 5))
  let d := d.closeRun e .complete
  if r.kind = .shadow then d
  else
    let k := r.axis.val
    let d := if r.irefd then d.setReg (F.AX_IREFD.at_ k) (uget r.ports 0x108) else d
    let d := if r.irefq then d.setReg (F.AX_IREFQ.at_ k) (uget r.ports 0x109) else d
    let d := d.put F.ENG_OVR_CONSEC e 0
    let d := d.modEng e fun u => { u with ckptDue := !r.mism }
    d.modAxis k fun a => { a with ovr := false, done := some { r.out with cl := r.flag fCl } }

/-! ### The issue of one instruction (R193, R202 to R206, R210) -/

/-- A register of the run waits for a far load. -/
def EngRun.waits (r : EngRun) (n : Nat) : Bool := r.far.any fun f => f.load && f.dest == n

/-- The cycle in which an instruction with these sources issues. -/
def EngRun.issueAt (r : EngRun) (srcs : List Nat) : Nat :=
  srcs.foldl (fun c n => max c (uget r.ready n)) r.cyc

/-- The cycle of the run, counted from its start slot, in which the deadline watchdog fires (R181, R276, R283). -/
def Dev.deadlineIn (d : Dev) (e : Nat) : Nat := (d.runProg e).wcet + 64

/-- The deadline watchdog fires on a run that is still going (R181). -/
def Dev.deadline (d : Dev) (e : Nat) : Dev :=
  let r := (d.eng e).run
  if r.live then (d.toCycle (r.startAt + d.deadlineIn e)).overrun e 1 else d

/-- A fetch or an opcode ends the run, unless the deadline fires no later (R230). -/
def Dev.endsAt (d : Dev) (e t cause : Nat) : Dev := if d.deadlineIn e ≤ t then d.deadline e else d.overrun e cause

/-- The last cycle in which an instruction of `cycles` that issues in cycle `t` is in progress is past the deadline: it does
not retire (R230). A HALT that retires in the deadline's cycle completes the run (R200). -/
def Dev.tooLate (d : Dev) (e op t cycles : Nat) : Bool := decide (d.deadlineIn e + (if op = 0x02 then 1 else 0) < t + cycles)

/-- The run can fetch, and the word at its program counter is this instruction with legal fields (R178, R201, R202). -/
def Dev.fetches (d : Dev) (op : Nat) (i : Issue) : Bool :=
  let e := i.eng.val
  let r := (d.eng e).run
  d.awake && r.live && i.fetch != .uncorrectable && decide (r.pc < (d.runProg e).codeN) && d.pword e == i.word op &&
    fieldsOk op i

/-- The last cycle of an instruction is the deadline's: it does not retire, but an access fault or an uncorrectable data word that
it meets is recorded, and the error ends the run ahead of the deadline (R200; log entry 88). -/
def Dev.lastCycle (d : Dev) (e : Nat) (body : Dev → Dev) : Dev :=
  let x := body d
  let faults := ((body (d.modRun e fun r => r.setFlag fAf false)).eng e).run.flag fAf
  if !(x.eng e).run.live then x
  else if faults then x.deadline e
  else d.deadline e

/-- The instruction with opcode `op` issues from the program word at the program counter (R201) and holds the issue stage for
`cycles`: nothing happens while a source still waits for a far load, nor for a command that is not that word (log entry 41);
an uncorrectable word, a fetch beyond the program, an illegal field or the deadline ends the run. `also` is what its rule
asks beyond the fields; `body` does the work and moves the program counter. -/
def Dev.issueRaw (d : Dev) (op : Nat) (i : Issue) (also : Bool) (srcs : List Nat) (cycles : Nat) (body : Dev → Dev) : Dev :=
  let e := i.eng.val
  let r := (d.eng e).run
  let t := r.issueAt srcs
  if !d.awake || !r.live || srcs.any r.waits then d
  else if d.deadlineIn e < t then d.deadline e
  else if i.fetch = .uncorrectable then d.engFatal e r.pc false
  else if (d.runProg e).codeN ≤ r.pc then d.endsAt e t 2
  else if d.pword e ≠ i.word op then d
  else
    let d := if i.fetch = .corrected then d.engCorrected e r.pc false else d
    if !(fieldsOk op i && also) then d.endsAt e t 3
    else if d.tooLate e op t cycles then
      if t + cycles = d.deadlineIn e + 1 then d.lastCycle e fun d => body (d.modRun e fun r => { r with cyc := t + cycles })
      else d.deadline e
    else body (d.modRun e fun r => { r with cyc := t + cycles })

/-- An instruction that does not transfer control. -/
def Dev.issue (d : Dev) (op : Nat) (i : Issue) (srcs : List Nat) (cycles : Nat) (body : Dev → Dev) : Dev :=
  d.issueRaw op i true srcs cycles fun d =>
    let d := body d
    if (d.eng i.eng.val).run.live then d.modRun i.eng.val EngRun.next else d

/-- An instruction that works on the engine's registers alone. -/
def Dev.alu (d : Dev) (op : Nat) (i : Issue) (srcs : List Nat) (cycles : Nat) (f : EngRun → EngRun) : Dev :=
  d.issue op i srcs cycles fun d => d.modRun i.eng.val f

/-- An access to data memory with the answer of its error correction; an uncorrectable word ends the run (R178). -/
def Dev.dataAccess (d : Dev) (i : Issue) (a : Nat) (body : Dev → Dev) : Dev :=
  let e := i.eng.val
  match i.data with
  | .ok => body d
  | .corrected => body (d.engCorrected e a true)
  | .uncorrectable => d.engFatal e a true

/-! ### Run start (R176, R179) -/

/-- A run starts at address 0 with every register cleared; IMM, OVR and FR as R176 lays down. -/
def Dev.startRun (d : Dev) (e k : Nat) (kind : RunKind) (at_ : Nat) : Dev :=
  let a := d.axis k
  let r : EngRun := { kind := kind, live := true, axis := Fin.ofNat 8 k, prog := (d.topo k).prog, startAt := at_, frame := d.get F.GEY_FCNT 0 }
  let r := ((r.setFlag fImm (kind == .takeover)).setFlag fOvr a.ovr).setFlag fFr a.fr
  let d := d.modEng e fun u => { u with run := r }
  let d := d.put F.ENG_STAT_STATE e (if kind = .shadow then 2 else 1)
  let d := d.putB F.ENG_STAT_IMM e (kind == .takeover)
  if kind = .shadow then d else (d.put F.ENG_STAT_AXIS e k).putB F.ENG_STAT_HASAXIS e true

end Sys2Proof.Machine
end

