-- ==== Sys2Proof/Machine/Alu.lean ====
section
/-! DEFINITION. Engine instructions that work on the engine's registers and data memory alone: control flow, moves,
local memory, arithmetic, logic, shifts, division (chapter 10). -/

namespace Sys2Proof.Machine

/-! ### Control flow (R208 to R211) -/

/-- NOP. -/
def Dev.nop (d : Dev) (i : Issue) : Dev := d.alu 0x01 i [] 1 id

/-- An uncorrectable error in the cycle in which HALT retires (R287): the run has completed, and the error triggers promotion.
The manual does not say which word it strikes: ENG_ECC takes a free value (log entry 82). -/
def Dev.eccAtHalt (d : Dev) (e : Nat) : Dev :=
  let n := d.freeNat
  let d := ((d.tick1.putB F.ENG_STAT_DECC e true).put F.ENG_ECC_ADDR e n).putB F.ENG_ECC_MEM e (n.testBit 16)
  if (d.eng e).run.kind = .shadow then d else d.trigger e 1

/-- HALT: it waits for outstanding far accesses, then the run is complete (R193, R211). -/
def Dev.halt (d : Dev) (i : Issue) : Dev :=
  let e := i.eng.val
  if d.fetches 0x02 i && !(d.eng e).run.far.isEmpty then d
  else d.issueRaw 0x02 i true [16] 1 fun d =>
    let d := d.completeRun e
    if i.data = .uncorrectable then d.eccAtHalt e else d

/-- BR: two cycles when taken. -/
def Dev.br (d : Dev) (i : Issue) : Dev :=
  let e := i.eng.val
  let taken := (d.eng e).run.cond i.dn
  d.issueRaw 0x03 i true [] (if taken then 2 else 1) fun d =>
    d.modRun e fun r => if taken then r.branch i.xn else r.next

/-- CALL; a fifth entry ends the run with cause OPCODE (R209). -/
def Dev.call (d : Dev) (i : Issue) : Dev :=
  let e := i.eng.val
  let full := decide (4 ≤ (d.eng e).run.stack.length)
  d.issueRaw 0x04 i (!full) [] 2 fun d =>
    d.modRun e fun r => { r with stack := (r.pc + 1) :: r.stack, pc := i.xn }

/-- RET; an empty stack ends the run with cause OPCODE (R209). -/
def Dev.retI (d : Dev) (i : Issue) : Dev :=
  let e := i.eng.val
  match (d.eng e).run.stack with
  | [] => d.issueRaw 0x05 i false [] 2 id
  | t :: rest => d.issueRaw 0x05 i true [] 2 fun d => d.modRun e fun r => r.ret t rest

/-- The count of LOOPI: bits [33:22]. -/
def loopCount (i : Issue) : Nat := i.dn * 256 + i.an * 16 + i.bn

/-- LOOPI; loops do not nest, and the end lies beyond the instruction (R210). -/
def Dev.loopi (d : Dev) (i : Issue) : Dev :=
  let e := i.eng.val
  let r := (d.eng e).run
  let n := loopCount i
  d.issueRaw 0x06 i (decide (r.pc < i.xn) && r.loop.isNone) [] (if n = 0 then 2 else 1) fun d =>
    d.modRun e fun r =>
      if n = 0 then { r with pc := i.xn + 1 }
      else { r with lc := n, loop := some { start := r.pc + 1, stop := i.xn, depth := r.stack.length }, pc := r.pc + 1 }

/-! ### Moves and special registers (R212, R213) -/

/-- MOV. -/
def Dev.mov (d : Dev) (i : Issue) : Dev :=
  d.alu 0x08 i [i.an] 1 fun r => r.setW i.dn (r.W i.an)

/-- LDI. -/
def Dev.ldi (d : Dev) (i : Issue) : Dev := d.alu 0x09 i [] 1 fun r => r.setW i.dn (wordI i.ximm)

/-- LDIH. -/
def Dev.ldih (d : Dev) (i : Issue) : Dev :=
  d.alu 0x0A i [i.dn] 1 fun r => r.setW i.dn (fput (r.W i.dn) 22 18 i.xn)

/-- What GETS returns (R213). -/
def EngRun.special (r : EngRun) (sel : Nat) : Word :=
  if sel < 4 then wordN (r.P sel)
  else match sel with
    | 4 => wordN r.lc
    | 5 => wordN r.flags.toNat
    | 6 => r.z0.extractLsb' 0 40
    | 7 => r.z0.extractLsb' 40 40
    | 8 => r.z1.extractLsb' 0 40
    | _ => r.z1.extractLsb' 40 40

/-- Z with its low or high word replaced; the high word sign-extends through the guard bits (R213). -/
def zPut (z : BitVec 88) (high : Bool) (w : Word) : BitVec 88 :=
  if high then (w ++ z.extractLsb' 0 40).signExtend 88 else z.extractLsb' 40 48 ++ w

/-- What PUTS writes (R213). -/
def EngRun.putSpecial (r : EngRun) (sel : Nat) (w : Word) : EngRun :=
  if sel < 4 then r.setP sel w.toNat
  else match sel with
    | 4 => { r with lc := w.toNat % 65536 }
    | 5 => { r with flags := r.flags.extractLsb' 4 12 ++ w.extractLsb' 0 4 }
    | 6 => { r with z0 := zPut r.z0 false w }
    | 7 => { r with z0 := zPut r.z0 true w }
    | 8 => { r with z1 := zPut r.z1 false w }
    | _ => { r with z1 := zPut r.z1 true w }

/-- GETS. -/
def Dev.gets (d : Dev) (i : Issue) : Dev :=
  d.alu 0x0B i [] 1 fun r => r.setW i.dn (r.special i.xn)

/-- PUTS. -/
def Dev.puts (d : Dev) (i : Issue) : Dev :=
  d.alu 0x0C i [i.an] 1 fun r => r.putSpecial i.xn (r.W i.an)

/-- PSET. -/
def Dev.pset (d : Dev) (i : Issue) : Dev :=
  d.alu 0x0D i [] 1 fun r => r.setP i.dn i.xn

/-! ### Local data memory (R214) -/

/-- LD. An address above 0x0FFF gives 0 and an access fault of KIND 6. -/
def Dev.ld (d : Dev) (i : Issue) : Dev :=
  let e := i.eng.val
  let a := (d.eng e).run.dataAddr i
  d.issue 0x10 i [] 1 fun d =>
    if 0xFFF < a then (d.accessFault e 0 6).modRun e fun r => (r.setW i.dn 0).postInc i.bn i.x21
    else d.dataAccess i a fun d => d.modRun e fun r => (r.setW i.dn (d.dmem e a)).postInc i.bn i.x21

/-- ST. -/
def Dev.st (d : Dev) (i : Issue) : Dev :=
  let e := i.eng.val
  let a := (d.eng e).run.dataAddr i
  d.issue 0x11 i [i.an] 1 fun d =>
    if 0xFFF < a then (d.accessFault e 0 6).modRun e fun r => r.postInc i.bn i.x21
    else d.dataAccess i a fun d =>
      let w := (d.eng e).run.W i.an
      (d.setDmem e a w).modRun e fun r => (r.out_ .st a w).postInc i.bn i.x21

/-! ### Integer and saturating arithmetic (R216, R217) -/

/-- The result of ADD, SUB and ADDI with its flags. -/
def EngRun.wrapAdd (r : EngRun) (dn : Nat) (x : Int) (c : Bool) : EngRun :=
  let v := wordI x
  (((r.setW dn v).zn v).setFlag fC c).setFlag fV (wraps40 x)

/-- A saturated result with ZN, C and V=s. -/
def EngRun.satResult (r : EngRun) (dn : Nat) (x : Int × Bool) (c : Bool) : EngRun :=
  let v := wordI x.1
  (((r.setW dn v).zn v).setFlag fC c).vs x.2

/-- A result with ZN, the given C and V = 0. -/
def EngRun.plainResult (r : EngRun) (dn : Nat) (v : Word) (c : Bool) : EngRun :=
  (((r.setW dn v).zn v).setFlag fC c).setFlag fV false

/-- The three-register form. -/
def Dev.alu3 (d : Dev) (op : Nat) (i : Issue) (f : EngRun → EngRun) : Dev := d.alu op i [i.an, i.bn] 1 f
/-- The two-register form. -/
def Dev.alu2 (d : Dev) (op : Nat) (i : Issue) (f : EngRun → EngRun) : Dev := d.alu op i [i.an] 1 f

/-- ADD. -/
def Dev.add (d : Dev) (i : Issue) : Dev :=
  d.alu3 0x14 i fun r => r.wrapAdd i.dn (r.WI i.an + r.WI i.bn) (carryOf (r.W i.an) (r.W i.bn))
/-- SUB. -/
def Dev.sub (d : Dev) (i : Issue) : Dev :=
  d.alu3 0x15 i fun r => r.wrapAdd i.dn (r.WI i.an - r.WI i.bn) (decide ((r.W i.an).toNat < (r.W i.bn).toNat))
/-- ADDI. -/
def Dev.addi (d : Dev) (i : Issue) : Dev :=
  d.alu 0x16 i [i.an] 1 fun r => r.wrapAdd i.dn (r.WI i.an + i.ximm) (carryOf (r.W i.an) (wordI i.ximm))
/-- ADDS. -/
def Dev.adds (d : Dev) (i : Issue) : Dev :=
  d.alu3 0x17 i fun r => r.satResult i.dn (sat (r.WI i.an + r.WI i.bn)) (carryOf (r.W i.an) (r.W i.bn))
/-- SUBS. -/
def Dev.subs (d : Dev) (i : Issue) : Dev :=
  d.alu3 0x18 i fun r => r.satResult i.dn (sat (r.WI i.an - r.WI i.bn)) (decide ((r.W i.an).toNat < (r.W i.bn).toNat))
/-- NEGS. -/
def Dev.negs (d : Dev) (i : Issue) : Dev := d.alu2 0x19 i fun r => r.satResult i.dn (sat (-r.WI i.an)) false
/-- SATP. -/
def Dev.satp (d : Dev) (i : Issue) : Dev := d.alu2 0x1A i fun r => r.satResult i.dn (sat (r.WI i.an)) false
/-- MIN. -/
def Dev.min_ (d : Dev) (i : Issue) : Dev :=
  d.alu3 0x1B i fun r => r.plainResult i.dn (if r.WI i.an ≤ r.WI i.bn then r.W i.an else r.W i.bn) false
/-- MAX. -/
def Dev.max_ (d : Dev) (i : Issue) : Dev :=
  d.alu3 0x1C i fun r => r.plainResult i.dn (if r.WI i.bn ≤ r.WI i.an then r.W i.an else r.W i.bn) false
/-- CLAMP. -/
def Dev.clamp_ (d : Dev) (i : Issue) : Dev :=
  d.alu3 0x1D i fun r =>
    let b := max (r.WI i.bn) 0
    let x := clampI (-b) b (r.WI i.an)
    r.satResult i.dn (x, x != r.WI i.an) false
/-- CMP. -/
def Dev.cmp (d : Dev) (i : Issue) : Dev :=
  d.alu 0x1E i [i.an, i.bn] 1 fun r =>
    (((r.setFlag fZ (r.W i.an == r.W i.bn)).setFlag fN (decide (r.WI i.an < r.WI i.bn))).setFlag fC
      (decide ((r.W i.an).toNat < (r.W i.bn).toNat))).setFlag fV false

/-! ### Multiplication and the wide accumulators (R218) -/

/-- MULS. -/
def Dev.muls (d : Dev) (i : Issue) : Dev :=
  d.alu3 0x20 i fun r => r.satResult i.dn (sat (fmul (r.WI i.an) (r.WI i.bn))) false
/-- The product of MUL and MAC, negated with X[0] = 1. -/
def EngRun.product (r : EngRun) (i : Issue) : Int :=
  let p := r.WI i.an * r.WI i.bn
  if i.xn % 2 = 1 then -p else p
/-- MUL. -/
def Dev.mul (d : Dev) (i : Issue) : Dev :=
  d.alu 0x21 i [i.an, i.bn] 1 fun r =>
    (r.setZ i.dn (BitVec.ofInt 88 (r.product i))).setFlag fV false
/-- MAC: V when the exact result leaves 88 bits, kept modulo 2^88. -/
def Dev.mac (d : Dev) (i : Issue) : Dev :=
  d.alu 0x22 i [i.an, i.bn] 1 fun r =>
    let x := (r.Z i.dn).toInt + r.product i
    (r.setZ i.dn (BitVec.ofInt 88 x)).setFlag fV (decide (x < -(2 ^ 87) ∨ 2 ^ 87 ≤ x))
/-- ZRD. -/
def Dev.zrd (d : Dev) (i : Issue) : Dev :=
  d.alu 0x23 i [] 1 fun r =>
    r.satResult i.dn (sat (rnd ((r.Z i.an).toInt * 2 ^ i.xn) 31)) false
/-- ZLD. -/
def Dev.zld (d : Dev) (i : Issue) : Dev :=
  d.alu 0x24 i [i.an] 1 fun r => r.setZ i.dn (BitVec.ofInt 88 (r.WI i.an * 2 ^ 31))

/-! ### Logic and shifts (R219, R220) -/

/-- The form of AND, OR and XOR. -/
def Dev.logic (d : Dev) (op : Nat) (i : Issue) (f : Word → Word → Word) : Dev :=
  d.alu op i (i.an :: i.secondSrc) 1 fun r => r.plainResult i.dn (f (r.W i.an) (r.logicArg i)) false
/-- AND. -/
def Dev.and_ (d : Dev) (i : Issue) : Dev := d.logic 0x28 i fun a b => a &&& b
/-- OR. -/
def Dev.or_ (d : Dev) (i : Issue) : Dev := d.logic 0x29 i fun a b => a ||| b
/-- XOR. -/
def Dev.xor_ (d : Dev) (i : Issue) : Dev := d.logic 0x2A i fun a b => a ^^^ b

/-- SHL's result and C. -/
def shlOf (a : Word) (k : Nat) : Word × Bool :=
  if k = 0 then (a, false) else if k < 40 then (a <<< k, a.getLsbD (40 - k)) else (0, k == 40 && a.getLsbD 0)
/-- SHR's result and C. -/
def shrOf (a : Word) (k : Nat) : Word × Bool :=
  if k = 0 then (a, false) else if k < 40 then (a >>> k, a.getLsbD (k - 1)) else (0, k == 40 && a.getLsbD 39)
/-- SAR's result and C. -/
def sarOf (a : Word) (k : Nat) : Word × Bool :=
  if k = 0 then (a, false) else if k < 40 then (a.sshiftRight k, a.getLsbD (k - 1))
  else (if a.getLsbD 39 then -1 else 0, a.getLsbD 39)

/-- The form of the shifts. -/
def Dev.shift (d : Dev) (op : Nat) (i : Issue) (f : Word → Nat → Word × Bool) : Dev :=
  d.alu op i (i.an :: i.secondSrc) 1 fun r =>
    let x := f (r.W i.an) (r.shiftArg i)
    r.plainResult i.dn x.1 x.2
/-- SHL. -/
def Dev.shl (d : Dev) (i : Issue) : Dev := d.shift 0x2B i shlOf
/-- SHR. -/
def Dev.shr (d : Dev) (i : Issue) : Dev := d.shift 0x2C i shrOf
/-- SAR. -/
def Dev.sar (d : Dev) (i : Issue) : Dev := d.shift 0x2D i sarOf

/-! ### Division (R221) -/

/-- One step of restoring division: remainder, quotient, C, V. -/
def divStep (r q b : Nat) : Nat × Nat × Bool × Bool :=
  let v := decide (b ≤ r)
  let r2 := 2 * r % 2 ^ 40
  let q2 := 2 * q % 2 ^ 40
  if b ≤ r2 then (r2 - b, (q2 + 1) % 2 ^ 40, true, v) else (r2, q2, false, v)

/-- DIVSTEP. -/
def Dev.divstep (d : Dev) (i : Issue) : Dev :=
  d.alu 0x30 i [i.dn, i.dn + 1, i.bn] 1 fun r =>
    let x := divStep (r.W i.dn).toNat (r.W (i.dn + 1)).toNat (r.W i.bn).toNat
    (((r.setW i.dn (wordN x.1)).setW (i.dn + 1) (wordN x.2.1)).setFlag fC x.2.2.1).setFlag fV x.2.2.2

end Sys2Proof.Machine
end

