-- ==== Sys2Proof/Machine/Vector.lean ====
section
/-! DEFINITION. Engine instructions on angles, vectors and PI blocks: TRIG, ATAN2, CLARKE, PARK, IPARK, SVM, PISTEP
(chapter 10). -/

namespace Sys2Proof.Machine

/-! ### CORDIC (R222, R223) -/

/-- T[i] of R222: round(atan(2^−i) × 2^32 / 2π). -/
def cordicT : List Nat :=
  [536870912, 316933406, 167458907, 85004756, 42667331, 21354465, 10679838, 5340245, 2670163, 1335087, 667544, 333772,
   166886, 83443, 41722, 20861] ++
  [10430, 5215, 2608, 1304, 652, 326, 163, 81, 41, 20, 10, 5, 3, 1, 1, 0]

/-- KX, KQ, K3, K13 and KS. -/
def kX : Int := 333840831522
def kQ : Int := 1304065748
def k3 : Int := 1239850262
def k13 : Int := 715827883
def kS : Int := 1859775393

/-- The iterations of TRIG from index `i` on. -/
def trigIter : List Nat → Nat → Int → Int → Int → Int × Int
  | [], _, x, y, _ => (x, y)
  | t :: ts, i, x, y, z =>
    let dx := floorDiv x (2 ^ i)
    let dy := floorDiv y (2 ^ i)
    if 0 ≤ z then trigIter ts (i + 1) (x - dy) (y + dx) (z - t) else trigIter ts (i + 1) (x + dy) (y - dx) (z + t)

/-- Sine and cosine of a TURN angle, each with whether it was clamped (R222). -/
def trig (w : Word) : (Int × Bool) × (Int × Bool) :=
  let f := w.toNat % 2 ^ 32
  let p := trigIter cordicT 0 kX 0 ((f % 2 ^ 30 : Nat) : Int)
  let xr := rnd p.1 8
  let yr := rnd p.2 8
  match f / 2 ^ 30 with
  | 0 => (sat yr, sat xr)
  | 1 => (sat xr, sat (-yr))
  | 2 => (sat (-yr), sat (-xr))
  | _ => (sat (-xr), sat yr)

/-- The iterations of ATAN2 from index `i` on: x and z at the end. -/
def atanIter : List Nat → Nat → Int → Int → Int → Int × Int
  | [], _, x, _, z => (x, z)
  | t :: ts, i, x, y, z =>
    let dx := floorDiv x (2 ^ i)
    let dy := floorDiv y (2 ^ i)
    if 0 ≤ y then atanIter ts (i + 1) (x + dy) (y - dx) (z + t) else atanIter ts (i + 1) (x - dy) (y + dx) (z - t)

/-- Angle and magnitude of the vector (x, y) (R223). -/
def atan2 (y x : Int) : Word × (Int × Bool) :=
  if y = 0 ∧ x = 0 then (0, (0, false))
  else
    let neg := decide (x < 0)
    let p := atanIter cordicT 0 ((if neg then -x else x) * 256) ((if neg then -y else y) * 256) (if neg then 2 ^ 31 else 0)
    (wordN (unsigned 32 p.2), sat (rnd (p.1 * kQ) 39))

/-- Two results with V=s. -/
def EngRun.pair (r : EngRun) (dn : Nat) (a b : Int × Bool) (c : Bool) : EngRun :=
  ((r.setW dn (wordI a.1)).setW (dn + 1) (wordI b.1)).vs (a.2 || b.2 || c)

/-- TRIG. -/
def Dev.trigI (d : Dev) (i : Issue) : Dev :=
  d.alu 0x31 i [i.an] 18 fun r =>
    let t := trig (r.W i.an)
    r.pair i.dn t.1 t.2 false

/-- ATAN2. -/
def Dev.atan2I (d : Dev) (i : Issue) : Dev :=
  d.alu 0x32 i [i.an, i.bn] 18 fun r =>
    let t := atan2 (r.WI i.an) (r.WI i.bn)
    ((r.setW i.dn t.1).setW (i.dn + 1) (wordI t.2.1)).vs t.2.2

/-! ### Frame transforms (R224, R225) -/

/-- CLARKE's α and β. -/
def clarke (three : Bool) (a b c : Int) : (Int × Bool) × (Int × Bool) :=
  if three then (sat (rnd ((2 * a - b - c) * k13) 31), sat (rnd ((b - c) * k3) 31))
  else (sat a, sat (rnd ((a + 2 * b) * k3) 31))

/-- CLARKE. -/
def Dev.clarkeI (d : Dev) (i : Issue) : Dev :=
  let three := i.xn % 2 == 1
  d.alu 0x33 i (if three then [i.an, i.bn, i.bn + 1] else [i.an, i.bn]) 3 fun r =>
      let t := clarke three (r.WI i.an) (r.WI i.bn) (r.WI (i.bn + 1))
      r.pair i.dn t.1 t.2 false

/-- PARK and IPARK: the angle's sine and cosine are those of TRIG. -/
def parkOf (inverse : Bool) (x y : Int) (w : Word) : (Int × Bool) × (Int × Bool) × Bool :=
  let t := trig w
  let s := t.1.1
  let c := t.2.1
  let sgn : Int := if inverse then -1 else 1
  (sat (rnd (x * c + sgn * (y * s)) 31), sat (rnd (y * c - sgn * (x * s)) 31), t.1.2 || t.2.2)

/-- The form of PARK and IPARK. -/
def Dev.parkForm (d : Dev) (op : Nat) (i : Issue) (inverse : Bool) : Dev :=
  d.alu op i [i.an, i.an + 1, i.bn] 20 fun r =>
    let t := parkOf inverse (r.WI i.an) (r.WI (i.an + 1)) (r.W i.bn)
    r.pair i.dn t.1 t.2.1 t.2.2

/-- PARK. -/
def Dev.parkI (d : Dev) (i : Issue) : Dev := d.parkForm 0x34 i false
/-- IPARK. -/
def Dev.iparkI (d : Dev) (i : Issue) : Dev := d.parkForm 0x35 i true

/-! ### Space-vector modulation (R226) -/

/-- The first of three phases that holds a value. -/
def phaseOf (v va vb : Int) : Nat := if va = v then 0 else if vb = v then 1 else 2

/-- The sector of the phases that hold the largest and the smallest value. -/
def sectorOf (largest smallest : Nat) : Nat :=
  match largest, smallest with
  | 0, 2 => 1
  | 1, 2 => 2
  | 1, 0 => 3
  | 2, 0 => 4
  | 2, 1 => 5
  | 0, 1 => 6
  | _, _ => 0

/-- The three duties, the sector, and whether anything was shortened or clamped. -/
def svm (al be : Int) : Int × Int × Int × Nat × Bool :=
  let va := al
  let vb := rnd (-al * 2 ^ 30 + be * kS) 31
  let vc := rnd (-al * 2 ^ 30 - be * kS) 31
  let span := max va (max vb vc) - min va (min vb vc)
  let big := decide ((2 : Int) ^ 31 < span)
  let k := fun (v : Int) => if big then floorDiv (v * 2 ^ 31) span.toNat else v
  let a := k va
  let b := k vb
  let c := k vc
  let mx := max a (max b c)
  let mn := min a (min b c)
  let off := 2 ^ 30 - floorDiv (mx + mn) 2
  let duty := fun (v : Int) => clampI 0 (2 ^ 31) (v + off)
  let sector := if mx = mn then 0 else sectorOf (phaseOf mx a b) (phaseOf mn a b)
  (duty a, duty b, duty c, sector, big || duty a != a + off || duty b != b + off || duty c != c + off)

/-- SVM. -/
def Dev.svmI (d : Dev) (i : Issue) : Dev :=
  d.alu 0x36 i [i.an, i.an + 1] 10 fun r =>
    let t := svm (r.WI i.an) (r.WI (i.an + 1))
    ((((r.setW i.dn (wordI t.1)).setW (i.dn + 1) (wordI t.2.1)).setW (i.dn + 2) (wordI t.2.2.1)).setW (i.dn + 3)
      (wordN t.2.2.2.1)).vs t.2.2.2.2

/-! ### PI step (R227) -/

/-- The output, the new integrator, and whether a step saturated or clamped. -/
def piStep (kp ki l i e : Int) : Int × Int × Bool :=
  let p := sat (fmul kp e)
  let ie := sat (fmul ki e)
  let it := sat (i + ie.1)
  let l := max l 0
  let u := sat (p.1 + it.1)
  let hold := decide ((l < u.1 ∧ 0 < e) ∨ (u.1 < -l ∧ e < 0))
  let inew := if hold then i else clampI (-l) l it.1
  let o := sat (p.1 + inew)
  let w := clampI (-l) l o.1
  (w, inew, p.2 || ie.2 || it.2 || u.2 || o.2 || w != o.1 || (!hold && inew != it.1))

/-- PISTEP on the block at (Pn + X[11:0]) mod 65,536. A block above 0x0FFF gives 0 and an access fault of KIND 6. The command's
one answer of the error correction is recorded at the block's first word (DESIGN CHOICE, log entry 88). -/
def Dev.pistepI (d : Dev) (i : Issue) : Dev :=
  let e := i.eng.val
  let a := ((d.eng e).run.P i.bn + i.xn % 4096) % 65536
  d.issue 0x37 i [i.an] 6 fun d =>
    if 0xFFF < a + 3 then (d.accessFault e 0 6).modRun e fun r => (r.setW i.dn 0).vs false
    else d.dataAccess i a fun d =>
      let m := fun j => (d.dmem e (a + j)).toInt
      let t := piStep (m 0) (m 1) (m 2) (m 3) ((d.eng e).run.WI i.an)
      (d.setDmem e (a + 3) (wordI t.2.1)).modRun e fun r => (r.setW i.dn (wordI t.1)).vs t.2.2

end Sys2Proof.Machine
end

