-- ==== Sys2Proof/Machine/Ports.lean ====
section
/-! DEFINITION. Ports and far accesses of the engines (chapters 9 and 10): which ports an axis has, what they read, port
instructions, far loads and stores. -/

namespace Sys2Proof.Machine

/-! ### The port map (R185, R186, R228, R244, R245, R268) -/

/-- What an instruction may do with a port of axis `k`: 0 closed, 1 read-only, 2 OUT, 3 WRDUTY, 4 WRIREF. CEIL reads with
IN as well as with RDCEIL. -/
def Dev.portClass (d : Dev) (k p : Nat) : Nat :=
  let pair := d.six k || d.par k
  let enc := (d.topo k).drive == 2
  if p < 0xC0 then (if p % 64 < 32 || pair then 1 else 0)
  else if p < 0xC4 then 1
  else if p = 0xC4 then (if enc then 2 else 0)
  else if 0xD0 ≤ p ∧ p ≤ 0xD6 then 1
  else if 0x100 ≤ p ∧ p ≤ 0x102 then 3
  else if 0x103 ≤ p ∧ p ≤ 0x105 then (if d.six k then 3 else 0)
  else if p = 0x106 then (if (d.topo k).brake ≠ 0xFF then 3 else 0)
  else if p = 0x108 ∨ p = 0x109 then 4
  else if p = 0x10A ∨ p = 0x10B then 1
  else if 0x140 ≤ p ∧ p ≤ 0x16F then 1
  else if 0x180 ≤ p ∧ p ≤ 0x187 then 2
  else if p = 0x1C0 ∨ p = 0x1CC ∨ p = 0x1E0 then 2
  else if 0x1C8 ≤ p ∧ p ≤ 0x1CA then 1
  else if p = 0x1E1 ∨ p = 0x1E3 then 1
  else 0

/-- The accumulator of index `a` of axis `k`. -/
def Dev.portAcc (d : Dev) (k a : Nat) : Nat :=
  if a < 32 then 32 * (d.topo k).pair + a else 32 * (d.topo (k + 1)).pair + (a - 32)

/-- The crossing angle that a port shows (R244). -/
def Dev.crossPort (d : Dev) (k i : Nat) : Word :=
  let f := fun (x : Fld) => d.get (x.nth i) k
  if f F.AX_CX_VALID = 1 then wordN (crossAngle (f F.AX_CX_PHASE) (f F.AX_CX_POL == 1) (f F.AX_CX_DIRX == 1)) else 0

/-- Port ISTART: the current of the present attempt. -/
def Dev.startCurrent (d : Dev) (k : Nat) : Word :=
  wordN ((d.live F.AX_SCUR_ISTART k + d.get F.AX_SSTAT_ATTEMPT k * d.live F.AX_SCUR_ISTEP k) * 2 ^ 15)

/-- What a read-only port of axis `k` reads (R185, R187). -/
def Dev.portValue (d : Dev) (k p : Nat) : Word :=
  let t := d.topo k
  let enc := t.drive == 2
  let copy := (d.axis k).copy
  if p < 0x40 then d.reg (F.ACC_HSUM.at_ (d.portAcc k p))
  else if p < 0x80 then d.reg (F.ACC_HCNT.at_ (d.portAcc k (p - 0x40)))
  else if p < 0xC0 then d.reg (F.ACC_HMM.at_ (d.portAcc k (p - 0x80)))
  else if p < 0xC4 then
    if !enc then 0
    else match p with
      | 0xC0 => d.reg (F.FBK_HPOS.at_ t.fbk)
      | 0xC1 => d.reg (F.FBK_SPD.at_ t.fbk)
      | 0xC2 => (d.fbk t.fbk).statTick
      | _ => d.reg (F.FBK_HAGE.at_ t.fbk)
  else if p = 0xD0 then d.reg (F.AX_CSTAT.at_ k)
  else if p ≤ 0xD6 then
    if enc then 0
    else match p with
      | 0xD1 => d.reg (F.AX_CX.at_ k)
      | 0xD2 => d.reg ((F.AX_CX.nth 1).at_ k)
      | 0xD3 => d.crossPort k 0
      | 0xD4 => d.crossPort k 1
      | 0xD5 => d.reg (F.AX_NANG.at_ k)
      | _ => d.reg (F.AX_NRATE.at_ k)
  else if p = 0x10A then (d.axis k).copyCeil
  else if p = 0x10B then (d.axis k).copyS
  else if p < 0x160 then uget copy (F.AX_PARAM.at_ k + (p - 0x140))
  else if p < 0x170 then uget copy (F.AX_MODE.at_ k + (p - 0x160))
  else if p = 0x1C8 then (d.axis k).sstatTick
  else if p = 0x1C9 then d.startCurrent k
  else if p = 0x1CA then (d.axis k).cmeasTick
  else if p = 0x1E1 then wordN (d.get F.GEY_FCNT 0)
  else wordN (k + 8 * t.prog + 64 * b2n (d.six k) + 128 * b2n (d.par k))

/-! ### Port writes of a run (R182, R187, R277) -/

/-- A port write is held by the run and is an item of its output stream. -/
def EngRun.wrote (r : EngRun) (p : Nat) (w : Word) : EngRun := ({ r with ports := uset r.ports p w }).out_ .port p w

/-- The value that a register had at the run's start is kept. -/
def EngRun.saveReg (r : EngRun) (a : Nat) (w : Word) : EngRun :=
  if r.savedRegs.any fun p => p.1 == a then r else { r with savedRegs := (a, w) :: r.savedRegs }

/-- What a leg held at the run's start is kept. -/
def EngRun.saveLeg (r : EngRun) (l : Nat) (w : Word) (written : Bool) : EngRun :=
  if r.savedLegs.any fun p => p.1 == l then r else { r with savedLegs := (l, w, written) :: r.savedLegs }

/-- What a brake leg held at the run's start is kept. -/
def EngRun.saveBrake (r : EngRun) (b n : Nat) (wrote : Bool) : EngRun :=
  if r.savedBrakes.any fun p => p.1 == b then r else { r with savedBrakes := (b, n, wrote) :: r.savedBrakes }

/-- A shadow run: nothing of it is applied (R276). -/
def Dev.shadow (d : Dev) (e : Nat) : Bool := (d.eng e).run.kind == .shadow

/-! ### IN and OUT (R228) -/

/-- IN. -/
def Dev.in_ (d : Dev) (i : Issue) : Dev :=
  let e := i.eng.val
  let p := i.xn
  d.issue 0x38 i [] 1 fun d =>
    let r := (d.eng e).run
    match d.portClass r.axis.val p with
    | 0 => (d.accessFault e p 1).modRun e fun r => r.setW i.dn 0
    | 1 => d.modRun e fun r => r.setW i.dn (d.portValue r.axis.val p)
    | _ => d.modRun e fun r => r.setW i.dn (if p = 0x1E0 then wordN r.cpage else uget r.ports p)

/-- A report register takes a value; the frame's requests see which were written. -/
def Dev.outRep (d : Dev) (e p : Nat) (w : Word) : Dev :=
  let k := (d.eng e).run.axis.val
  let a := F.AX_REP.at_ k + (p - 0x180)
  let old := d.reg a
  let d := d.modRun e fun r =>
    ({ r with out := { r.out with repMask := setBit r.out.repMask (p - 0x180) true } }.saveReg a old).wrote p w
  if d.shadow e then d else d.setReg a w

/-- PEVT: the register and EV(8k+7). -/
def Dev.outPevt (d : Dev) (e : Nat) (w : Word) : Dev :=
  let k := (d.eng e).run.axis.val
  let d := d.modRun e fun r => r.wrote 0x1C0 w
  if d.shadow e then d else (d.setReg (F.AX_PEVT.at_ k) w).axEvent k 7

/-- A write with OUT to a port that takes it; bits that must be 0 make it an access fault. -/
def Dev.outPort (d : Dev) (e p : Nat) (w : Word) : Dev :=
  match p with
  | 0xC4 =>
    if w.toNat < 2 then d.modRun e fun r => { r with out := { r.out with fctl := r.out.fctl || w == 1 } }.wrote p w
    else d.accessFault e p 1
  | 0x1CC =>
    if w.toNat < 8 then d.modRun e fun r => { r with out := { r.out with sreq := r.out.sreq ||| w.toNat } }.wrote p w
    else d.accessFault e p 1
  | 0x1E0 =>
    if w.toNat < 8 then d.modRun e fun r => { r with cpage := w.toNat }.wrote p w
    else d.accessFault e p 2
  | 0x1C0 => d.outPevt e w
  | _ => d.outRep e p w

/-- OUT. -/
def Dev.out (d : Dev) (i : Issue) : Dev :=
  let e := i.eng.val
  let p := i.xn
  d.issue 0x39 i [i.an] 1 fun d =>
    let r := (d.eng e).run
    match d.portClass r.axis.val p with
    | 1 => d.accessFault e p 2
    | 2 => d.outPort e p (r.W i.an)
    | _ => d.accessFault e p 1

/-! ### RDAVG, RDPOS, RDCEIL (R150, R188) -/

/-- RDAVG. -/
def Dev.rdavg (d : Dev) (i : Issue) : Dev :=
  let e := i.eng.val
  let p := i.xn
  d.issue 0x3A i [] 6 fun d =>
    let k := (d.eng e).run.axis.val
    if p < 0x40 ∧ d.portClass k p = 1 then
      let n := d.portAcc k p
      let x := sat (frameMean (d.getI F.ACC_HSUM_SUM n) (d.get F.ACC_HCNT_CNT n) (d.getI F.ACC_CFG_SCALE n))
      d.modRun e fun r => (r.setW i.dn (wordI x.1)).vs x.2
    else (d.accessFault e p 1).modRun e fun r => (r.setW i.dn 0).setFlag fV false

/-- RDPOS. -/
def Dev.rdpos (d : Dev) (i : Issue) : Dev :=
  let e := i.eng.val
  let p := i.xn
  d.issue 0x3B i [] 1 fun d =>
    let k := (d.eng e).run.axis.val
    let u := (d.topo k).fbk
    let enc := (d.topo k).drive == 2
    if p = 0xC0 then
      d.modRun e fun r => ((r.setW i.dn (d.portValue k p)).setFlag fPv (enc && (d.fbk u).statTick.getLsbD 0)).setFlag fPn
        (enc && (d.fbk u).begunTick && decide (d.get F.FBK_HAGE_AGE u < d.gey.prevLen))
    else (d.accessFault e p 1).modRun e fun r => r.setW i.dn 0

/-- RDCEIL. -/
def Dev.rdceil (d : Dev) (i : Issue) : Dev :=
  let e := i.eng.val
  d.issue 0x3E i [] 1 fun d =>
    d.modRun e fun r => r.setW i.dn (d.portValue r.axis.val 0x10A)

/-! ### WRDUTY (R84, R95, R189, R232) -/

/-- The interruption time of a takeover, in core cycles from its trigger (R285). -/
def Dev.recordItime (d : Dev) (e t : Nat) : Dev :=
  match d.patrol.fresh.find? fun x => x.1 == e with
  | none => d
  | some (_, k, t0) =>
    let n := t - t0
    let late := (d.get F.ENG_PQUAL_QUAL 0).testBit (d.topo k).prog && decide (8000 < n)
    let d := d.modPat fun p => { p with fresh := p.fresh.filter fun x => x.1 != e }
    let d := d.raiseIf late 102
    if d.get F.ENG_PLAST_RES 0 + 8 = e ∧ d.get F.ENG_PLAST_AXIS 0 = k then
      let d := d.put F.ENG_PLAST_ITIME 0 (min n 16383)
      if late then d.putB F.ENG_PLAST_OVER 0 true else d
    else d

/-- A duty reaches a leg: its shadow register, or the immediate port in a takeover run. -/
def Dev.dutyLeg (d : Dev) (e l : Nat) (w : Word) : Dev :=
  let r := (d.eng e).run
  let d := d.modRun e fun r => r.saveLeg l (d.reg (F.LEG_SDUTY.at_ l)) (d.leg l).written
  match r.kind with
  | .shadow => d
  | .takeover =>
    let t := r.startAt + (r.cyc - 1)
    ((d.advance (t - d.clk.now)).immediateDuty l w).recordItime e t
  | _ => d.shadowDuty l w

/-- A duty reaches a brake leg: the largest of the frame counts. -/
def Dev.dutyBrake (d : Dev) (e b : Nat) (w : Word) : Dev :=
  let u := d.brk b
  let d := d.modRun e fun r => r.saveBrake b u.next u.wrote
  if d.shadow e then d else d.modBrk b fun u => { u with next := max u.next (clampDuty w).toNat, wrote := true }

/-- WRDUTY. -/
def Dev.wrduty (d : Dev) (i : Issue) : Dev :=
  let e := i.eng.val
  let p := i.xn
  d.issue 0x3C i [i.an] 1 fun d =>
    let r := (d.eng e).run
    let k := r.axis.val
    let w := r.W i.an
    let c := clampDuty w
    if d.portClass k p ≠ 3 then d.accessFault e p 1
    else if p = 0x106 ∧ (d.comm k).ramp.isNone then d.accessFault e p 3
    else if p ≠ 0x106 ∧ d.flag F.AX_CFG_IREQ k ∧ !r.irefq then d.accessFault e p 3
    else
      let d := if p = 0x106 then d.dutyBrake e (d.topo k).brake w else d.dutyLeg e (3 * k + (p - 0x100)) w
      d.modRun e fun r => (r.wrote p c).clampFlags (c != w)

/-! ### WRIREF (R190) -/

/-- The value after the clamp of R190: `l` is I_LIM_EFF, `refd` the value held at IREFD. -/
def clampIref (q : Bool) (l refd v : Int) : Int :=
  let m := max l 0
  if q then
    let lq := ((isqrt (m * m - refd * refd).toNat : Nat) : Int)
    clampI (-lq) lq v
  else clampI (-m) m v

/-- WRIREF. -/
def Dev.wriref (d : Dev) (i : Issue) : Dev :=
  let e := i.eng.val
  let p := i.xn
  d.issue 0x3D i [i.an] 8 fun d =>
    let r := (d.eng e).run
    let k := r.axis.val
    if d.portClass k p ≠ 4 then (d.accessFault e p 1).modRun e fun r => r.setW i.dn 0
    else
      let x := clampIref (p == 0x109) (d.axis k).copyCeil.toInt (uget r.ports 0x108).toInt (r.WI i.an)
      d.modRun e fun r =>
        let r := ((r.setW i.dn (wordI x)).wrote p (wordI x)).clampFlags (decide (x ≠ r.WI i.an))
        if p = 0x108 then { r with irefd := true } else { r with irefq := true }

/-! ### Far accesses (R191 to R194, R215, R320, R324 to R327) -/

/-- The Caldera word that a far access addresses (R191). -/
def EngRun.farAddr (r : EngRun) (i : Issue) : Nat := r.cpage * 65536 + r.P i.bn

/-- The far load at address `pc` returns: its value, or 0 with an access fault of KIND 5 on an error tag (R194). -/
def Dev.farReturn (d : Dev) (e pc dest : Nat) (x : Option Word) (ready : Nat) : Dev :=
  let d := if x.isNone then d.accessFaultAt e pc 0 5 else d
  d.modRun e fun r => { r.setW dest (x.getD 0) with ready := uset r.ready dest ready }

/-- The number of far accesses that are outstanding in a cycle of the run (R193). -/
def EngRun.outstanding (r : EngRun) (c : Nat) : Nat := r.far.length + (r.served.filter fun t => decide (c < t)).length

/-- The first cycle of the run, from `c` on, in which fewer than four are outstanding; `none` while four wait for their
grants. -/
def EngRun.farFrom (r : EngRun) (c : Nat) : Option Nat :=
  ((c :: r.served).filter fun t => decide (c ≤ t ∧ r.outstanding t < 4)).foldl (fun m t => match m with
    | none => some t
    | some x => some (min x t)) none

/-- A far access has been served: it is outstanding until cycle `c` of the run, and HALT waits for it (R193, R211). -/
def EngRun.serve (r : EngRun) (c : Nat) : EngRun :=
  { r with served := r.served ++ [c], ready := uset r.ready 16 (max (uget r.ready 16) c) }

/-- A far access is parked in its bank's queue. -/
def Dev.farPark (d : Dev) (e b : Nat) (f : Far) (q : Req) : Dev :=
  (d.modQueue b fun l => l ++ [q]).modRun e fun r => { r with far := r.far ++ [f] }

/-- The issue of a far access that the map allows: it wins, and its data moves in the next cycle, or it is parked with its age
(R193, R324, R327). -/
def Dev.farIssue (d : Dev) (e : Nat) (i : Issue) (load won : Bool) (since : Nat) : Dev :=
  let r := (d.eng e).run
  let t := r.startAt + (r.cyc - 1)
  let a := r.farAddr i
  let b := bankOf a
  let w := r.W i.an
  let q : Req := { req := e, since := since, addr := a, kind := if load then .load i.dn else .store w }
  let d := d.modRun e fun r => (if load then r else r.out_ .stf a w).postInc i.bn i.x21
  if !load && r.kind == .shadow then d
  else
    let wins := won && d.conWins b t q
    let d := d.unpark b e t
    if wins then
      let d := (if d.conBusy b ≤ t then d.setBusy b (t + 1) (t + 1) else d).modRun e fun x => x.serve (r.cyc + 1)
      if load then
        let x := d.conRead a i.data
        x.1.farReturn e r.pc i.dn x.2 (r.cyc + 1)
      else d.conWrite a w
    else d.farPark e b { load := load, dest := i.dn, addr := a, value := w, pc := r.pc } q

/-- The far access `i` names the word at the program counter and may issue (R192, R215, R276). -/
def Dev.farGoes (d : Dev) (i : Issue) (load : Bool) : Bool :=
  let r := (d.eng i.eng.val).run
  d.fetches (if load then 0x12 else 0x13) i && d.engineMay r.axis.val (bankOf (r.farAddr i)) && (load || r.kind != .shadow)

/-- A far access waits at issue in cycle `now`: for a place among four outstanding ones, or for a place in a full queue, where QFULL
counts the cycles of its attempts (R193, R327). -/
def Dev.farStall (d : Dev) (e : Nat) (queueFull : Bool) (now : Nat) : Dev :=
  let r := (d.eng e).run
  let d := match r.full with
    | some (_, last) => if queueFull then d.bump F.CON_CNT_QFULL 0 (now - last) else d
    | none => d
  d.modRun e fun r => { r with
    stalled := true
    full := if queueFull then some (match r.full with
      | some (first, _) => (first, now)
      | none => (now, now)) else r.full }

/-- A far access issues in cycle `c` of the run, after its wait. -/
def Dev.farResume (d : Dev) (e c : Nat) : Dev :=
  let r := (d.eng e).run
  let d := match r.full with
    | some (_, last) => d.bump F.CON_CNT_QFULL 0 (r.startAt + c - last)
    | none => d
  d.modRun e fun r => { r with cyc := max r.cyc c, stalled := false, full := none }

/-- LDF and STF. A fifth outstanding access, and one whose bank's queue is full, wait at issue (R193, R327). -/
def Dev.far (d : Dev) (i : Issue) (load won : Bool) : Dev :=
  let e := i.eng.val
  let srcs := if load then [] else [i.an]
  let r := (d.eng e).run
  let b := bankOf (r.farAddr i)
  let body := fun (since : Nat) (d : Dev) => d.issue (if load then 0x12 else 0x13) i srcs 1 fun d =>
    if d.engineMay r.axis.val b then d.farIssue e i load won since
    else (d.accessFault e 0 4).modRun e fun r => if load then r.setW i.dn 0 else r
  if !d.farGoes i load || srcs.any r.waits then body 0 d
  else
    let c := max (r.issueAt srcs) (if r.stalled then d.clk.now - r.startAt else 0)
    match r.farFrom c with
    | none => d.farStall e false (r.startAt + c)
    | some c =>
      let t := r.startAt + c
      let since := match r.full with
        | some (first, _) => first
        | none => t
      let d := d.arbTo t
      let q : Req := { req := e, since := since, addr := r.farAddr i, kind := .load 0 }
      if decide (c ≤ d.deadlineIn e) && d.conFull b t && !(won && d.conWins b t q) then d.farStall e true t
      else body since (d.farResume e c)

/-- A far load or store, as a request. -/
def Req.isFar (r : Req) : Bool := match r.kind with
  | .load _ => true
  | .store _ => true
  | _ => false

/-- FAR_ACCESS_COMPLETE: a parked far access that the arbiter has granted moves its data (R193, R324, R326). -/
def Dev.farComplete (d : Dev) (b : Nat) (ecc : Ecc) : Dev :=
  let x := d.granted b Req.isFar
  match x.2 with
  | none => d
  | some q =>
    let e := q.req
    let d := x.1.grantEnds b q
    let c := q.at_.getD 0 + 1 - (d.eng e).run.startAt
    match q.kind with
    | .load dest =>
      let own := fun (f : Far) => f.load && f.addr == q.addr && f.dest == dest
      let pc := (((d.eng e).run.far.find? own).map Far.pc).getD 0
      let d := d.modRun e fun r => { r with far := r.far.eraseP own }.serve c
      let x := d.conRead q.addr ecc
      x.1.farReturn e pc dest x.2 c
    | .store w => (d.modRun e fun r => { r with far := r.far.eraseP (fun f => !f.load && f.addr == q.addr) }.serve c).conWrite q.addr w
    | _ => d

/-- The hold limit of an engine's transfer: its oldest far access ends with an error tag (R194, R331). -/
def Dev.farCutOff (d : Dev) (e : Nat) : Dev :=
  match (d.eng e).run.far with
  | [] => d
  | f :: rest =>
    let b := bankOf f.addr
    let x := d.granted b fun q => q.req == e
    match x.2 with
    | none => d
    | some q =>
      let d := x.1.grantCut b e q
      let c := d.clk.now + 1 - (d.eng e).run.startAt
      let d := d.modRun e fun r => { r with far := rest }.serve c
      if f.load then d.farReturn e f.pc f.dest none c else d.accessFaultAt e f.pc 0 5

end Sys2Proof.Machine
end

