-- ==== Sys2Proof/Machine/Slots.lean ====
section
/-! DEFINITION. Slot actions, patrol and promotion (chapters 3, 9 and 13): run starts, checkpoints, heartbeats, marks, late
actions, the engines' own faults, verdicts, fencing and takeovers. -/

namespace Sys2Proof.Machine

/-! ### The active table (R63, R64) -/

/-- Active slot word `s`. -/
def Dev.aslot (d : Dev) (s : Nat) : Word := d.reg (F.GEY_ASLOT.at_ s)
/-- OFFSET, ACTION and MASK of a slot word. -/
def slotOffset (w : Word) : Nat := fget w 0 16
def slotAction (w : Word) : Nat := fget w 16 4
def slotMask (w : Word) : Nat := fget w 20 8

/-! ### Starts (R22, R179, R276) -/

/-- The LIVE registers that ports read: the command block and the parameters of an axis. -/
def liveAddrs (k : Nat) : List Nat :=
  ((List.range 16).map fun i => F.AX_MODE.at_ k + i).filter isReg ++ (List.range 32).map fun i => F.AX_PARAM.at_ k + i

/-- The frame copy is taken (R22). -/
def Dev.takeCopy (d : Dev) (k : Nat) : Dev :=
  let copy := (liveAddrs k).foldl (fun t a => uset t a (d.reg a)) []
  d.modAxis k fun a => { a with copy := copy, copyS := wordN (d.gey.s16 * 2 ^ 15), copyCeil := d.reg (F.AX_CEIL.at_ k) }

/-- Where half `h` of an axis's checkpoint begins (R195). -/
def ckptAt (k h : Nat) : Nat := 0x7F800 + 0x100 * k + 0x80 * h

/-- The checkpoint block of the half that LAST names is copied into the partition of axis `k`'s program on reserve `e`. A word
with an error tag copies as 0 (DESIGN CHOICE, log entry 87). -/
def Dev.copyCkpt (d : Dev) (e src k : Nat) : Dev :=
  let part := 4096 * (d.topo k).prog
  let n := (d.progOf k).ckpt
  let from_ := ckptAt k (d.get F.ENG_CKPT_LAST src)
  (d.conMeets from_ n).modEng e fun u => { u with
    dmem := (List.range n).foldl (fun m j => uset m (part + j) (d.conSees (from_ + j))) u.dmem }

/-- The axis that a reserve shadows in this frame, 8 for none. -/
def Dev.shadows (d : Dev) (e : Nat) : Nat := if e = 8 then d.get F.ENG_PSTAT_AX8 0 else d.get F.ENG_PSTAT_AX9 0

/-- A shadow run starts once the checkpoint is copied, which takes at most 200 cycles (R276). An axis that a reserve has come to
hold since the tick is not shadowed (R275). -/
def Dev.startShadow (d : Dev) (e k : Nat) : Dev :=
  match d.engineOf k with
  | none => d
  | some p =>
    if d.shadows e ≠ k ∨ !d.freeRes e ∨ (d.eng e).run.live then d
    else if 8 ≤ p then (d.put (if e = 8 then F.ENG_PSTAT_AX8 else F.ENG_PSTAT_AX9) 0 8).bump F.ENG_PCNT_SKIP 0
    else
      let copied := d.freeNat % 201
      let d := ((d.copyCkpt e p k).tick1).startRun e k .shadow (d.clk.now + copied)
      d.modPat fun x => { x with open_ := x.open_ ++ [{ res := e, axis := k }] }

/-- The start of one axis at its slot; `false` while its engine is still busy. -/
def Dev.startAxis (d : Dev) (off k : Nat) : Dev × Bool :=
  if d.gey.ran.testBit k then (d, true)
  else match d.engineOf k with
    | none => (d, true)
    | some e =>
      if (d.eng e).run.live || d.patrol.takeover.any fun t => t.1 == e then (d, false)
      else
        let d := d.takeCopy k
        let at_ := d.clk.frameStart + off
        let d := (d.startRun e k .primary at_).modRun e fun r => { r with cyc := d.clk.now - at_ }
        let d := d.modEng e fun u => { u with ckptDue := false }
        let d := (d.startShadow 8 k).startShadow 9 k
        let d := d.modAxis k fun a => { a with lastRun := some (d.get F.GEY_FCNT 0), ovr := false, fr := false }
        (d.modGey fun g => { g with ran := setBit g.ran k true }, true)

/-! ### Checkpoints (R195, R196, R279, R283) -/

/-- The burst of an axis waits: a comparison is open, a promotion of its engine is pending, a takeover run is under way or
about to start, or the burst before it is not over. -/
def Dev.ckptWaits (d : Dev) (e k : Nat) : Bool :=
  (d.eng e).run.live || (d.patrol.takeover.any fun t => t.2 == k) || (d.patrol.trig.any fun t => t.eng == e) ||
    (d.patrol.open_.any fun c => c.axis == k) || (d.eng e).burst.isSome

/-- The checkpoint burst begins (R196): the data words of the half that LAST does not name, and the header last, each a request
to M15 (R323; log entry 48). -/
def Dev.beginBurst (d : Dev) (e k : Nat) : Dev :=
  let h := 1 - d.get F.ENG_CKPT_LAST e
  let n := (d.progOf k).ckpt
  let f := (d.eng e).run.frame
  (d.modEng e fun u => { u with
    ckptDue := false
    burst := some { addr := ckptAt k h, words := tabulate n fun j => d.dmem e j
                    header := wordN (f % 2 ^ 32 + n * 2 ^ 32 + 2 ^ 39)
                    half := h, frame := f, since := d.clk.now } }).unpark 15 e d.clk.now

/-- The checkpoint of one axis at its slot; `false` while it waits. One that has started bursts on by itself. -/
def Dev.ckptAxis (d : Dev) (k : Nat) : Dev × Bool :=
  match d.engineOf k with
  | none => (d, true)
  | some e =>
    if (d.eng e).burst.isSome && !(d.eng e).ckptDue then (d, true)
    else if d.ckptWaits e k then (d, false)
    else (if (d.eng e).ckptDue then d.beginBurst e k else d, true)

/-! ### Slots (R62, R66, R67) -/

/-- An action for each masked axis; `true` when none of them waits. -/
def Dev.forAxes (d : Dev) (mask : Nat) (f : Dev → Nat → Dev × Bool) : Dev × Bool :=
  (bitsOf 8 mask).foldl (fun x k => let y := f x.1 k; (y.1, x.2 && y.2)) (d, true)

/-- The actions that a busy resource can hold up; `false` while it does. -/
def Dev.slotBody (d : Dev) (s : Nat) : Dev × Bool :=
  let w := d.aslot s
  match slotAction w with
  | 1 => d.forAxes (slotMask w) fun d k => d.startAxis (slotOffset w) k
  | 2 => d.forAxes (slotMask w) fun d k => d.ckptAxis k
  | 4 => if d.link.cfg.isSome then (d, false) else (d.sendHeartbeat, true)
  | _ => (d, true)

/-- A slot has started. -/
def Dev.slotDone (d : Dev) (s : Nat) : Dev :=
  d.modGey fun g => { g with started := setBit g.started s true, late := setBit g.late s false }

/-- A slot is late or dropped: the count, the slot and EV126. -/
def Dev.slotFault (d : Dev) (s : Nat) (count : Fld) : Dev := ((d.bump count 0).put F.GEY_OVR_LSLOT 0 s).raise 126

/-- A slot action starts at its OFFSET, or is late. -/
def Dev.slot (d : Dev) (s act : Nat) (body : Dev → Dev × Bool) : Dev :=
  if !d.awake || !d.sys.sealed || !d.clk.ticked || slotAction (d.aslot s) != act || d.gey.started.testBit s ||
      d.gey.late.testBit s then d
  else
    let x := body (d.at_ (slotOffset (d.aslot s)))
    if x.2 then x.1.slotDone s
    else (x.1.slotFault s F.GEY_OVR_LATE).modGey fun g => { g with late := setBit g.late s true }

/-- The checkpoint of a completed takeover run whose CKPT slot of this frame has gone by follows at once (R283). -/
def Dev.takeoverCkpt (d : Dev) (e : Nat) : Dev :=
  let r := (d.eng e).run
  let k := r.axis.val
  if (d.eng e).ckptDue && r.kind == .takeover && !d.ckptWaits e k && ((List.range 32).any fun s =>
      slotAction (d.aslot s) == 2 && (slotMask (d.aslot s)).testBit k && d.gey.started.testBit s) then d.beginBurst e k
  else d

/-- Late actions whose resource has become free start, in slot order, and the checkpoints of takeover runs. -/
def Dev.serveLate (d : Dev) : Dev :=
  let d := if d.gey.late = 0 then d
    else d.each (bitsOf 32 d.gey.late) fun s d =>
      let x := d.slotBody s
      if x.2 then x.1.slotDone s else x.1
  (d.takeoverCkpt 8).takeoverCkpt 9

/-! ### Illegal instructions (R201, R202) -/

/-- The word is illegal by itself: its opcode is not listed, or a field breaks R202. -/
def illegalWord (w : Word) : Bool := (instrOf (w.toNat >>> 34) (issueOf w) false).isNone || !fieldsOk (w.toNat >>> 34) (issueOf w)

/-- FETCH_FAULT: the fetch address is at or beyond CODE_N (R180). -/
def Dev.fetchFault (d : Dev) (e : Nat) : Dev :=
  let r := (d.eng e).run
  if r.live && decide ((d.runProg e).codeN ≤ r.pc) then d.endsAt e r.cyc 2 else d

/-- ILLEGAL_INSTRUCTION: the word at the program counter is the illegal word `w`. -/
def Dev.illegal (d : Dev) (e : Nat) (w : Word) : Dev :=
  let r := (d.eng e).run
  if r.live && illegalWord w && decide (r.pc < (d.runProg e).codeN) && d.pword e == w then d.endsAt e r.cyc 3 else d

/-! ### Patrol (R275 to R279) -/

/-- An axis may be shadowed in the frame that begins (R275). -/
def Dev.shadowable (d : Dev) (k : Nat) : Bool :=
  match d.engineOf k with
  | none => false
  | some e =>
    d.primary k && decide (e < 8) && !d.bit F.ENG_PCTL_EXCL 0 k && d.flag F.ENG_CKPT_VALID e &&
      d.get F.ENG_CKPT_FRAME e == (d.get F.GEY_FCNT 0 + 2 ^ 24 - 1) % 2 ^ 24

/-- One free reserve's axis for the frame; an idle reserve counts in SKIP. -/
def Dev.patrolPick (d : Dev) (ax : Fld) (k : Nat) : Dev :=
  if d.shadowable k then d.put ax 0 k else d.bump F.ENG_PCNT_SKIP 0

/-- The axes shadowed in the frame that the tick opens. -/
def Dev.patrolTick (d : Dev) : Dev :=
  let j := d.get F.GEY_FCNT 0 % 8
  let d := (d.put F.ENG_PSTAT_AX8 0 8).put F.ENG_PSTAT_AX9 0 8
  if !d.flag F.ENG_PCTL_PATROL then d
  else if d.freeRes 8 then
    let d := d.patrolPick F.ENG_PSTAT_AX8 j
    if d.freeRes 9 then d.patrolPick F.ENG_PSTAT_AX9 ((j + 4) % 8) else d
  else if d.freeRes 9 then d.patrolPick F.ENG_PSTAT_AX9 j
  else d

/-- A comparison ends without a verdict. -/
def Dev.noVerdict (d : Dev) (e : Nat) : Dev :=
  ((d.modPat fun p => { p with open_ := p.open_.filter fun c => c.res != e }).putB F.ENG_PSTAT_ABANDON 0 true).bump
    F.ENG_PCNT_SKIP 0

/-- Shadow runs and comparisons that the tick finds unfinished. -/
def Dev.patrolEnd (d : Dev) : Dev :=
  let d := d.each (d.patrol.open_.map Cmp.res) fun e d => d.noVerdict e
  d.each [8, 9] fun e d => if (d.eng e).run.live ∧ (d.eng e).run.kind = .shadow then d.closeRun e .reset else d

/-- The first pair of unequal items of two streams, oldest first: its index and the primary's item. -/
def firstUnequal : List Item → List Item → Nat → Option (Nat × Item)
  | p :: ps, s :: ss, n => if p = s then firstUnequal ps ss (n + 1) else some (n, p)
  | _, _, _ => none

/-- What the comparator finds on a primary's run and its shadow (R277, R278). A shadow that its own hardware fault ended falls short of a
completed primary: the mismatch is its next item. -/
def verdictOf (p s : EngRun) : Verdict :=
  let ps := p.items.reverse
  let ss := s.items.reverse
  match firstUnequal ps ss 0 with
  | some (n, x) => .mismatch n x
  | none =>
    let soft := fun (r : EngRun) => r.ended == .overrun && !(r.hang || r.parity)
    if p.ended = .complete ∧ s.ended = .complete then .match_
    else if soft p || soft s || p.ended == .ecc || p.ended == .reset || s.ended == .reset || p.ended == .overrun then .none_
    else if 512 < ps.length - ss.length ∨ 512 < ss.length - ps.length then .none_
    else if p.ended = .complete ∧ (s.ended = .ecc ∨ s.ended = .overrun) then
      match ps.drop ss.length with
      | [] => .none_
      | x :: _ => .mismatch ss.length x
    else .open_

/-- The comparator looks at the runs it compares after each item and each end of a run: what it finds first stands (R277). -/
def Dev.compareRuns (d : Dev) : Dev :=
  if d.patrol.open_ = [] then d
  else d.modPat fun p => { p with open_ := p.open_.map fun c => match c.found, d.engineOf c.axis with
    | .open_, some e => { c with found := verdictOf (d.eng e).run (d.eng c.res).run }
    | _, _ => c }

/-- ENG_PMIS.KIND. -/
def ItemKind.code : ItemKind → Nat
  | .port => 0
  | .st => 1
  | .stf => 2
  | .done => 3

/-- An engine is fenced (R281): its run ends, its requests are withdrawn, EV101. -/
def Dev.fence (d : Dev) (e : Nat) : Dev :=
  let d := if (d.eng e).run.live then d.closeRun e .reset else d.withdraw e
  let d := (d.putBit F.ENG_PROM_FENCED 0 e true).put F.ENG_STAT_STATE e 3
  ((d.cutBurst e).modEng e fun u => { u with ckptDue := false }).raise 101

/-- The number of free reserves. -/
def Dev.freeCount (d : Dev) : Nat := b2n (d.freeRes 8) + b2n (d.freeRes 9)

/-- EV103 when the number of free reserves has fallen to 0 (R286). -/
def Dev.resLow (d : Dev) (before : Nat) : Dev := d.raiseIf (decide (0 < before) && d.freeCount == 0) 103

/-- The run has met a hardware fault of its engine (R278). -/
def EngRun.ownFault (r : EngRun) : Bool := r.hang || r.parity || r.clockBad || r.ended == .ecc

/-- A mismatch (R277, R278): its record, EV99, and the fault of the primary, or of the reserve. -/
def Dev.mismatch (d : Dev) (e p k n : Nat) (x : Item) : Dev :=
  let r := (d.eng e).run
  let d := if d.flag F.ENG_PSTAT_MISM then d
    else ((((((d.put F.ENG_PMIS_AXIS 0 k).put F.ENG_PMIS_RES 0 (e - 8)).put F.ENG_PMIS_INDEX 0 (min n 4095)).put
      F.ENG_PMIS_KIND 0 x.kind.code).put F.ENG_PMIS_ADDR 0 x.addr).put F.ENG_PMIS_FRAME 0 r.frame)
  let d := (d.putB F.ENG_PSTAT_MISM 0 true).raise 99
  let d := d.modPat fun a => { a with open_ := a.open_.filter fun c => c.res != e }
  let d := d.modEng p fun u => { u with ckptDue := false, run := { u.run with mism := true } }
  if r.ownFault then
    let before := d.freeCount
    (d.fence e).resLow before
  else d.trigger p 5 (some e)

/-- A reserve reports a hardware fault in the shadow run whose mismatch awaits the warden: it is fenced instead, and the primary
keeps its axis (R278, R287). -/
def Dev.shadowFault (d : Dev) (e : Nat) : Dev :=
  let r := (d.eng e).run
  if r.kind == .shadow && r.ownFault && d.patrol.trig.any fun t => t.res == some e then
    let before := d.freeCount
    ((d.modPat fun p => { p with trig := p.trig.filter fun t => t.res != some e }).fence e).resLow before
  else d

/-- After an instruction or the end of a run: the comparator, a fault of a reserve, then what waits for the engine (R67, R277,
R278). -/
def Dev.settle (d : Dev) : Dev := ((d.compareRuns.shadowFault 8).shadowFault 9).serveLate

/-! ### Hang, parity, clock (R184, R280) -/

/-- The cycle of the run in which an engine hangs that retires nothing more: 256 cycles after the last that an instruction or a
far access took (R184). -/
def EngRun.hangAt (r : EngRun) : Nat := max r.cyc (uget r.ready 16) + 256

/-- ENGINE_HANG: nothing has retired for 256 cycles with no far access outstanding, and the deadline has not fired. -/
def Dev.hangs (d : Dev) (e : Nat) : Dev :=
  let r := (d.eng e).run
  if r.live && r.far.isEmpty && !r.stalled && decide (r.hangAt ≤ d.deadlineIn e) then
    (((d.toCycle (r.startAt + r.hangAt)).putB F.ENG_STAT_HANG e true).modRun e fun r => { r with hang := true }).shadowFault e
  else d

/-- PARITY_ERROR. -/
def Dev.parityError (d : Dev) (e : Nat) : Dev :=
  let d := if (d.eng e).run.live then d.modRun e fun r => { r with parity := true } else d
  (d.trigger e 2).shadowFault e

/-- CLOCK_MONITOR_FAULT. -/
def Dev.clockFault (d : Dev) (e : Nat) : Dev :=
  let d := if (d.eng e).run.live then d.modRun e fun r => { r with clockBad := true } else d
  (d.trigger e 3).shadowFault e

/-- PATROL_VERDICT for reserve `e`. -/
def Dev.verdict (d : Dev) (e : Nat) : Dev :=
  match d.compareRuns.patrol.open_.find? fun c => c.res == e with
  | none => d
  | some c =>
    match d.engineOf c.axis with
    | none => d.noVerdict e
    | some p =>
      match c.found with
      | .open_ => d
      | .match_ => (d.modPat fun a => { a with open_ := a.open_.filter fun x => x.res != e }).bump F.ENG_PCNT_MATCH 0
      | .none_ => d.noVerdict e
      | .mismatch n x => d.mismatch e p c.axis n x

/-! ### Promotion (R281, R283 to R287) -/

/-- The axis's last started run is newer than its last good checkpoint (R283). -/
def Dev.needsTakeover (d : Dev) (e k : Nat) : Bool :=
  match (d.axis k).lastRun with
  | none => false
  | some f => !d.flag F.ENG_CKPT_VALID e || d.get F.ENG_CKPT_FRAME e != f % 2 ^ 24

/-- HOLD8 or HOLD9. -/
def Dev.setHold (d : Dev) (e k : Nat) : Dev := if e = 8 then d.put F.ENG_PROM_HOLD8 0 k else d.put F.ENG_PROM_HOLD9 0 k

/-- A reserve is assigned the axis of a failed engine, with the axis's checkpoint and its consecutive overruns (R183; log entry
43). -/
def Dev.assign (d : Dev) (t : Trigger) (k r : Nat) : Dev :=
  let e := t.eng
  let take := d.needsTakeover e k
  let prog := (d.topo k).prog
  let d := if d.patrol.open_.any fun c => c.res == r then d.noVerdict r else d
  let d := if (d.eng r).run.live then d.closeRun r .reset else d
  let d := d.setHold r k
  let d := if r = 8 then d.put F.ENG_PSTAT_AX8 0 8 else d.put F.ENG_PSTAT_AX9 0 8
  let d := ((d.put F.ENG_STAT_STATE r 1).put F.ENG_STAT_AXIS r k).putB F.ENG_STAT_HASAXIS r true
  let d := (d.setReg (F.ENG_CKPT.at_ r) (d.reg (F.ENG_CKPT.at_ e))).put F.ENG_OVR_CONSEC r (d.get F.ENG_OVR_CONSEC e)
  let d := (((d.put F.ENG_PLAST_FAILED 0 e).put F.ENG_PLAST_RES 0 (r - 8)).put F.ENG_PLAST_AXIS 0 k).put F.ENG_PLAST_CAUSE 0 t.cause
  let d := ((d.putB F.ENG_PLAST_TAKE 0 take).putB F.ENG_PLAST_CKVALID 0 (take && d.flag F.ENG_CKPT_VALID e)).put
    F.ENG_PLAST_ITIME 0 0
  let d := ((d.putB F.ENG_PLAST_QUAL 0 ((d.get F.ENG_PQUAL_QUAL 0).testBit prog)).putB F.ENG_PLAST_OVER 0 false).bump
    F.ENG_PLAST_COUNT 0
  let d := d.modPat fun p => { p with
    fresh := p.fresh.filter (fun x => x.1 != r) ++ [(r, k, t.at_)],
    takeover := if take then p.takeover ++ [(r, k)] else p.takeover }
  d.raise 98

/-- An axis is stranded: its stored policy without a RAMP, STRAND and EV100 (R286). -/
def Dev.strand (d : Dev) (k : Nat) : Dev := (((d.stopNow k).putBit F.ENG_PROM_STRAND 0 k true)).raise 100

/-- The trigger that the warden serves next: the one of the earliest warden cycle, of two core cycles, then the lowest engine
(R6, R281). -/
def nextTrigger (l : List Trigger) : Option Trigger :=
  l.foldl (fun b t => match b with
    | none => some t
    | some x => if t.at_ / 2 < x.at_ / 2 ∨ (t.at_ / 2 = x.at_ / 2 ∧ t.eng < x.eng) then some t else some x) none

/-- PROMOTION: the warden fences the failed engine and assigns the lowest free reserve, or strands the axis. -/
def Dev.promote (d : Dev) : Dev :=
  match if d.wdn.stopped then none else nextTrigger d.patrol.trig with
  | none => d
  | some t =>
    let e := t.eng
    let served := d.servedBy e
    let before := d.freeCount
    let d := d.modPat fun p => { p with trig := p.trig.filter fun x => x.eng != e, takeover := p.takeover.filter fun x => x.1 != e }
    let d := d.fence e
    let d := if 8 ≤ e then (d.setHold e 8).putB F.ENG_STAT_HASAXIS e false else d
    let d := match served with
      | none => d
      | some k =>
        let d := d.each ((d.patrol.open_.filter fun (c : Cmp) => c.axis == k).map Cmp.res) fun r d => d.noVerdict r
        if d.freeRes 8 then d.assign t k 8
        else if d.freeRes 9 then d.assign t k 9
        else d.strand k
    d.resLow before

/-- TAKEOVER_START: the checkpoint is copied and the run starts at once, on the frame copy of the present frame. -/
def Dev.takeoverStart (d : Dev) (e : Nat) : Dev :=
  match d.patrol.takeover.find? fun t => t.1 == e with
  | none => d
  | some (_, k) =>
    let d := d.modPat fun p => { p with takeover := p.takeover.filter fun t => t.1 != e }
    if d.engineOf k ≠ some e then d
    else
      let d := if d.flag F.ENG_CKPT_VALID e then d.copyCkpt e e k else d
      let d := d.startRun e k .takeover d.clk.now
      d.modAxis k fun a => { a with lastRun := some (d.get F.GEY_FCNT 0), ovr := false, fr := false }

/-- Interruption times of promotions without a takeover run end at the tick (R285). -/
def Dev.freshTick (d : Dev) : Dev :=
  d.each (d.patrol.fresh.map Prod.fst) fun e d =>
    if (d.patrol.takeover.any fun t => t.1 == e) || (d.eng e).run.kind == .takeover then d else d.recordItime e d.clk.now

/-! ### Meanings -/

/-- PROG (R179). -/
def execProg (slot : Fin 32) (s : State) : Host.Outcome State Fault Refusal :=
  s.lift fun d => d.slot slot 1 fun d => d.slotBody slot
/-- CKPT (R196). -/
def execCkpt (slot : Fin 32) (s : State) : Host.Outcome State Fault Refusal :=
  s.lift fun d => d.slot slot 2 fun d => d.slotBody slot
/-- HEARTBEAT (R15). -/
def execHeartbeat (slot : Fin 32) (s : State) : Host.Outcome State Fault Refusal :=
  s.lift fun d => d.slot slot 4 fun d => d.slotBody slot
/-- MARK (R64). -/
def execMark (slot : Fin 32) (s : State) : Host.Outcome State Fault Refusal :=
  s.lift fun d => d.slot slot 6 fun d => (d.raise 124, true)
/-- ILLEGAL_INSTRUCTION (R202). -/
def execIllegalInstruction (eng : Fin 10) (w : Word) (s : State) : Host.Outcome State Fault Refusal :=
  s.lift fun d => (d.illegal eng w).settle
/-- FETCH_FAULT (R180). -/
def execFetchFault (eng : Fin 10) (s : State) : Host.Outcome State Fault Refusal := s.lift fun d => (d.fetchFault eng).settle
/-- ENGINE_DEADLINE (R181). -/
def execEngineDeadline (eng : Fin 10) (s : State) : Host.Outcome State Fault Refusal := s.lift fun d => (d.deadline eng).settle
/-- ENGINE_HANG (R184). -/
def execEngineHang (eng : Fin 10) (s : State) : Host.Outcome State Fault Refusal := s.lift fun d => d.hangs eng
/-- PARITY_ERROR (R280). -/
def execParityError (eng : Fin 10) (s : State) : Host.Outcome State Fault Refusal := s.lift fun d => d.parityError eng
/-- CLOCK_MONITOR_FAULT (R280). -/
def execClockMonitorFault (eng : Fin 10) (s : State) : Host.Outcome State Fault Refusal := s.lift fun d => d.clockFault eng
/-- PATROL_VERDICT (R277). -/
def execPatrolVerdict (res : Fin 2) (s : State) : Host.Outcome State Fault Refusal :=
  s.lift fun d => (d.verdict (8 + res)).settle
/-- PROMOTION (R281). -/
def execPromotion (s : State) : Host.Outcome State Fault Refusal := s.lift fun d => d.promote.settle
/-- TAKEOVER_START (R283). -/
def execTakeoverStart (res : Fin 2) (s : State) : Host.Outcome State Fault Refusal :=
  s.lift fun d => (d.takeoverStart (8 + res)).settle

end Sys2Proof.Machine
end

