-- ==== Sys2Proof/Machine/Journal.lean ====
section
/-! DEFINITION. The Tephra journal (chapter 14): batches and their parsing, acceptance and commit, execution, transfers on
CAN, ageing and the restore after a reset. -/

namespace Sys2Proof.Machine

/-! ### Commands as words and bytes (R290 to R292, R295) -/

/-- The commands of a host batch: each takes 2 words, its arguments and its tag word. `none` when the words do not divide.
Bits that R292 requires to be 0 are kept above FLAGS. -/
def hostCmds : Nat → List Word → Option (List Cmd)
  | _, [] => some []
  | 0, _ => none
  | _ + 1, [_] => none
  | n + 1, w0 :: w1 :: rest =>
    let flags := w1.toNat >>> 8
    let narg := flags % 4
    let tagged := flags.testBit 3
    let tw := (rest.getD narg 0).toNat
    let len := narg + b2n tagged
    if rest.length < len then none
    else match hostCmds n (rest.drop len) with
      | none => none
      | some cs => some ({ src := fget w0 0 8, seq := fget w0 8 24, code := fget w0 32 8, mask := fget w1 0 8
                           flags := flags + if tagged then (tw >>> 32) * 2 ^ 32 else 0
                           args := rest.take narg, tag := if tagged then some (beBytes 4 (tw % 2 ^ 32)) else none } :: cs)

/-- The commands of a transfer, back to back (R295). -/
def canCmds : Nat → List Byte → Option (List Cmd)
  | _, [] => some []
  | 0, _ => none
  | n + 1, bs =>
    let flags := byteAt bs 6
    let narg := flags % 4
    let tagged := flags.testBit 3
    let len := 7 + 5 * narg + if tagged then 4 else 0
    if bs.length < len then none
    else match canCmds n (bs.drop len) with
      | none => none
      | some cs => some ({ src := byteAt bs 0, seq := leNat ((bs.drop 1).take 3), code := byteAt bs 4, mask := byteAt bs 5
                           flags := flags
                           args := tabulate narg fun i => wordN (leNat ((bs.drop (7 + 5 * i)).take 5))
                           tag := if tagged then some ((bs.drop (7 + 5 * narg)).take 4) else none } :: cs)

/-- Canonical bytes 0 to 6 + 5 × NARG (R290). -/
def Cmd.bytes (c : Cmd) : List Byte :=
  leBytes 1 c.src ++ leBytes 3 c.seq ++ leBytes 1 c.code ++ leBytes 1 c.mask ++ leBytes 1 c.flags ++
    c.args.flatMap fun w => leBytes 5 w.toNat

/-- An argument as a number. -/
def Cmd.arg (c : Cmd) (i : Nat) : Nat := (c.args.getD i 0).toNat

/-- The row of R291, and the bits that must be 0. -/
def Cmd.layoutOk (c : Cmd) : Bool :=
  let n := c.args.length
  decide (c.flags / 16 = 0) &&
  match c.code with
  | 1 => n == 0 && c.mask == 0
  | 2 => n == 2 && c.mask != 0 && decide (c.arg 1 < 3)
  | 3 => n == 1 && c.mask != 0 && decide (c.arg 0 < 4)
  | 4 => n == 0 && c.mask != 0
  | 5 => n == 0 && c.mask != 0
  | 6 => n == 1 && c.mask == 0 && decide (c.arg 0 < 2 ^ 24)
  | 7 => n == 1 && decide (c.arg 0 < 16) && (c.mask != 0 || c.arg 0 != 0)
  | 8 => n == 2 && c.mask == 0 && decide (c.arg 0 < 2 ^ 16)
  | 9 => n == 1 && c.mask == 0 && decide (c.arg 0 < 2 ^ 17)
  | _ => false

/-! ### Source, authentication, sequence (R297 to R299) -/

/-- The class range that holds a source. -/
def Dev.classOf (d : Dev) (src : Nat) : Option ClassR :=
  d.img.cur.classes.find? fun r => decide (r.first ≤ src ∧ src ≤ r.last)

/-- The authentication check: 0, or the status of its refusal. -/
def Dev.authFault (d : Dev) (otp : List (Nat × Option Word)) (r : ClassR) (c : Cmd) : Nat :=
  if r.auth then
    match c.tag with
    | none => St.auth
    | some t =>
      let msg := d.get F.JNL_CFG_NODE :: c.bytes.map BitVec.toNat
      if d.cmacState otp r.key = 1 ∧ (cmac (cmacKey otp r.key) msg).take 4 = t.map BitVec.toNat then 0 else St.auth
  else if c.tag.isSome then St.format else 0

/-- The lowest free source slot. -/
def Journal.freeSlot (j : Journal) : Option Nat := (List.range 64).find? fun i => (uget j.sources i).isNone

/-- A HELLO registers its source, or registers it again: last is SEQ − 1 and every record is empty. -/
def Journal.register (j : Journal) (c : Cmd) (auth : Bool) (path : Nat) : Journal :=
  let x : Source := { src := c.src, last := (c.seq + 2 ^ 24 - 1) % 2 ^ 24, auth := auth, path := path, idle := 0, recs := [] }
  match (j.slotOf c.src).or j.freeSlot with
  | none => j
  | some i => { j with sources := uset j.sources i (some x) }

/-- A new command leaves last = SEQ and the record ACCEPTED. -/
def Journal.take (j : Journal) (c : Cmd) (path : Nat) : Journal :=
  j.modSource c.src fun x => { x with
    last := c.seq, path := path, idle := 0
    recs := uset x.recs (c.seq % 256) { seq := c.seq, code := c.code, st := St.accepted } }

/-- A new command or a duplicate restarts ageing (R300). -/
def Dev.touch (d : Dev) (src : Nat) : Dev := d.modSource src fun x => { x with idle := 0 }

/-- What its own checks make of a command. -/
inductive Fate where
  | refused (st : Nat)
  | new (registers : Bool)
  | dup
  deriving DecidableEq, Repr, Inhabited

/-- Steps 1 and 2 of R301 for one command, against the journal that the commands before it would leave. -/
def Dev.fateOf (d : Dev) (otp : List (Nat × Option Word)) (j : Journal) (c : Cmd) : Fate :=
  if !c.layoutOk then .refused St.format
  else match d.classOf c.src with
    | none => .refused St.unknownSrc
    | some r =>
      match j.source c.src with
      | none =>
        if c.code ≠ 1 then .refused St.unknownSrc
        else if j.freeSlot.isNone then .refused St.noslot
        else if d.authFault otp r c ≠ 0 then .refused (d.authFault otp r c)
        else .new true
      | some x =>
        let n := (c.seq + 2 ^ 24 - x.last) % 2 ^ 24
        if d.authFault otp r c ≠ 0 then .refused (d.authFault otp r c)
        else if n = 1 then .new false
        else if n = 0 ∨ 2 ^ 24 - 255 ≤ n then .dup
        else if c.code = 1 then .new true
        else .refused St.gap

/-- The journal that a command would leave. -/
def Dev.afterCmd (d : Dev) (j : Journal) (c : Cmd) (path : Nat) : Fate → Journal
  | .refused _ => j
  | .dup => j.modSource c.src fun x => { x with idle := 0, path := path }
  | .new false => j.take c path
  | .new true => (j.register c (match d.classOf c.src with
      | none => false
      | some r => r.auth) path).take c path

/-- The status of a duplicate: the record of its sequence, or STALE (R299). -/
def Journal.dupStatus (j : Journal) (c : Cmd) : Nat := match j.source c.src with
  | none => St.stale
  | some x => match x.record c.seq with
    | none => St.stale
    | some r => r.st

/-- The commands of a batch in order, each with its fate and the status of a duplicate, and the journal they would leave. -/
def Dev.walk (d : Dev) (otp : List (Nat × Option Word)) (path : Nat) :
    List Cmd → Journal → Journal × List (Cmd × Fate × Nat)
  | [], j => (j, [])
  | c :: cs, j =>
    let f := d.fateOf otp j c
    let r := d.walk otp path cs (d.afterCmd j c path f)
    (r.1, (c, f, j.dupStatus c) :: r.2)

/-! ### Records of refusals and duplicates (R299, R301, R309) -/

/-- The record of a command. -/
def Cmd.ack (c : Cmd) (st : Nat) : Ack := { src := c.src, seq := c.seq, st := st, data := 0, code := c.code }

/-- A refusal: JNL_RLAST, REF, EV108 and its record. -/
def Dev.refuse (d : Dev) (path : Nat) (a : Ack) : Dev :=
  let d := ((d.put F.JNL_RLAST_SOURCE 0 a.src).put F.JNL_RLAST_SEQ 0 a.seq).put F.JNL_RLAST_STATUS 0 a.st
  ((d.bump F.JNL_CNT_REF 0).raise 108).sendRecord path a

/-- The single record of a batch that is refused as a whole. -/
def Dev.refuseWhole (d : Dev) (path src st : Nat) : Dev := d.refuse path { src := src, seq := 0, st := st, data := 0, code := 0 }

/-- A duplicate is re-acknowledged. -/
def Dev.reAck (d : Dev) (path : Nat) (c : Cmd) (st : Nat) : Dev :=
  ((d.bump F.JNL_CNT2_DUP 0).touch c.src).sendRecord path (c.ack st)

/-- The records of a refused batch. `cause` is the position among the new commands that a failed step 3 to 5 names, with
its status. -/
def Dev.refuseBatch (path : Nat) (cause : Option (Nat × Nat)) : List (Cmd × Fate × Nat) → Nat → Dev → Dev
  | [], _, d => d
  | (c, f, _) :: rest, n, d =>
    match f with
    | .refused st =>
      let d := d.raiseIf (st == St.noslot) 109
      Dev.refuseBatch path cause rest n (d.refuse path (c.ack st))
    | .dup => Dev.refuseBatch path cause rest n (d.reAck path c (d.jnl.dupStatus c))
    | .new _ =>
      let st := match cause with
        | none => St.batch
        | some (p, st) => if p = n then st else St.batch
      Dev.refuseBatch path cause rest (n + 1) ((d.touch c.src).refuse path (c.ack st))

/-! ### Retained words (R303, R304, R312, R329) -/

/-- The reservation of the journal engine is released: words that wait go into the next one, and with none left nothing is
undone by a reset (R304, R333). -/
def Dev.jnlRelease (d : Dev) : Dev :=
  let d := d.release 10
  if (d.resvOf 10).isSome then d
  else if d.jnl.unwritten = [] ∨ d.jnl.banks = [] then d.modJnl fun j => { j with undo := none, unwritten := [] }
  else d.jnlReserve

/-- Reservations of the journal engine are released, `n` of them at most. -/
def Dev.jnlReleases (d : Dev) : Nat → Dev
  | 0 => d
  | n + 1 =>
    let d := d.jnlRelease
    if (d.resvOf 10).isSome then d.jnlReleases n else d

/-- Every word of the journal engine that waits is written, unless another reservation keeps its banks. -/
def Dev.jnlFlush (d : Dev) : Dev := d.jnlReleases (3 + d.jnl.unwritten.length / 64)

/-- A transaction of the journal engine opens: its reservation, once the one before it has been released. -/
def Dev.jnlOpen (d : Dev) : Dev :=
  let d := d.jnlFlush
  if (d.resvOf 10).isSome || d.jnl.banks = [] then d else d.jnlReserve

/-- RESERVATION_RELEASE (R333). -/
def Dev.releaseOf (d : Dev) (q : Nat) : Dev := if q = 10 then d.jnlRelease else d.release q

/-- The hold limit of the journal engine's reservation: what it had staged is written again with its next one (R331, log
entry 31). -/
def Dev.jnlCutOff (d : Dev) : Dev :=
  match d.resvOf 10 with
  | none => d
  | some r =>
    let d := d.cutOff 10
    if (d.resvOf 10).isSome then d else d.modJnl fun j => { j with unwritten := r.staged ++ j.unwritten }

/-- The words of an entry (R303). -/
def Entry.words (e : Entry) (executed : Bool) : List (Nat × Word) :=
  [(4 * e.slot, wordN (e.src + e.seq * 2 ^ 8 + e.code * 2 ^ 32)),
   (4 * e.slot + 1, wordN (e.mask + e.flags * 2 ^ 8 + b2n executed * 2 ^ 16 + e.frame * 2 ^ 20)),
   (4 * e.slot + 2, e.arg0), (4 * e.slot + 3, e.arg1)]

/-- What a read of one copy meets: its own answer, and the error that stands in the word (R319; log entry 87). A word that the
open reservation has staged is read from there (R329). -/
def Dev.copyMeets (d : Dev) (bank w : Nat) (c : CopyRead) : CopyRead :=
  let a := calAddr bank w
  if ((d.resvOf 10).map fun r => r.staged.any fun p => p.1 == a) == some true then .ok
  else match c with
    | .failed => .failed
    | .uncorrectable => .uncorrectable
    | .corrected => if d.con.bad.contains a then .uncorrectable else .corrected
    | .ok => if d.con.bad.contains a then .uncorrectable else if d.con.wb.contains a then .corrected else .ok

/-- A read of one copy of a retained word. -/
def Dev.copyRead (d : Dev) (bank w : Nat) : CopyRead → Dev
  | .ok => d
  | .corrected => d.eccCorrected (calAddr bank w)
  | .uncorrectable => d.eccUncorrectable (calAddr bank w)
  | .failed => d.eccUncorrectable (calAddr bank w)

/-- The read returned an error tag. -/
def copyBad : CopyRead → Bool
  | .ok => false
  | .corrected => false
  | .uncorrectable => true
  | .failed => true

/-- A retained word is read from both copies (R312): an uncorrectable word is repaired from the other copy, or its copy is
marked failed; with both failed the journal halts. -/
def Dev.readCopies (d : Dev) (w : Nat) (m14 m15 : CopyRead) : Dev :=
  let in14 := d.jnl.mirror == 0 || d.jnl.mirror == 2
  let in15 := d.jnl.mirror == 0 || d.jnl.mirror == 1
  let m14 := d.copyMeets 14 w m14
  let m15 := d.copyMeets 15 w m15
  let d := if in14 then d.copyRead 14 w m14 else d
  let d := if in15 then d.copyRead 15 w m15 else d
  let good14 := in14 && !copyBad m14
  let good15 := in15 && !copyBad m15
  let lost14 := !in14 || (copyBad m14 && (m14 == .failed || !good15))
  let lost15 := !in15 || (copyBad m15 && (m15 == .failed || !good14))
  let bad14 := in14 && copyBad m14
  let bad15 := in15 && copyBad m15
  let d := (d.raiseIf (bad14 || bad15) 110).modJnl fun j => { j with mirror := b2n lost14 + 2 * b2n lost15 }
  d.jnlWrite d.jnl ((if bad14 && !lost14 then [(calAddr 14 w, d.calFor 10 (calAddr 15 w))] else []) ++
    if bad15 && !lost15 then [(calAddr 15 w, d.calFor 10 (calAddr 14 w))] else [])

/-- Words with a standing error among those that `p` admits are read from both copies. -/
def Dev.readStanding (d : Dev) (p : Nat → Bool) : Dev :=
  (((d.con.bad ++ d.con.wb).filter fun a => decide (14 ≤ bankOf a)).map fun a => a % 2 ^ 15).foldl (fun d w =>
    if p w then d.readCopies w .ok .ok else d) d

/-- The words that the journal engine reads for a batch (R302, R303): head and commit words, and the slots of its sources. -/
def Dev.batchReads (d : Dev) (b : Batch) (w : Nat) : Bool :=
  w == 0x2040 || w == 0x2041 || (b.cmds.any fun c => match d.jnl.slotOf c.src with
    | none => false
    | some i => decide (0x1000 + 56 * i ≤ w ∧ w < 0x1000 + 56 * (i + 1)))

/-! ### Acceptance and commit (R301, R302) -/

/-- SIZE. -/
def Dev.jnlSize (d : Dev) : Nat := 64 * (d.get F.JNL_CFG_SIZEC 0 + 1)

/-- The step from 3 to 5 that fails: the position of the new command it names, and the status. -/
def Dev.batchFault (d : Dev) (news : Nat) : Option (Nat × Nat) :=
  let free := d.jnlSize - d.jnl.entries.length
  if news = 0 then none
  else if d.jnl.mirror = 3 then some (0, St.halted)
  else if d.jnlSize < news then some (d.jnlSize, St.toobig)
  else if free < news then some (free, St.busy)
  else none

/-- The number of new commands. -/
def newCount (l : List (Cmd × Fate × Nat)) : Nat := (l.filter fun x => match x.2.1 with
  | .new _ => true
  | _ => false).length

/-- A command of the batch fails its own checks. -/
def anyRefused (l : List (Cmd × Fate × Nat)) : Bool := l.any fun x => match x.2.1 with
  | .refused _ => true
  | _ => false

/-- The first free slot of the ring, from the head on. -/
def Dev.nextSlot (d : Dev) : Nat :=
  (((List.range d.jnlSize).map fun i => (d.jnl.head + i) % d.jnlSize).find? fun s =>
    !d.jnl.entries.any fun e => e.slot == s).getD 0

/-- A new command becomes an entry of the journal. -/
def Dev.addEntry (d : Dev) (c : Cmd) : Dev × Entry :=
  let s := d.nextSlot
  let e : Entry := { src := c.src, seq := c.seq, code := c.code, mask := c.mask, flags := c.flags % 256
                     arg0 := c.args.getD 0 0, arg1 := c.args.getD 1 0
                     frame := d.get F.GEY_FCNT 0 % 2 ^ 20, slot := s, fresh := true }
  (d.modJnl fun j => { j with entries := j.entries ++ [e], head := (s + 1) % d.jnlSize }, e)

/-- The records, counts and entries of an accepted batch, in command order. -/
def Dev.commitCmds (path : Nat) : List (Cmd × Fate × Nat) → Dev → List (Nat × Word) → Dev × List (Nat × Word)
  | [], d, ws => (d, ws)
  | (c, f, st) :: rest, d, ws =>
    match f with
    | .refused _ => Dev.commitCmds path rest d ws
    | .dup => Dev.commitCmds path rest ((d.bump F.JNL_CNT2_DUP 0).sendRecord path (c.ack st)) ws
    | .new registers =>
      let x := (d.raiseIf registers 109).addEntry c
      Dev.commitCmds path rest ((x.1.bump F.JNL_CNT_ACC 0).sendRecord path (c.ack St.accepted)) (ws ++ x.2.words false)

/-- The format of a CAN transfer becomes its sources' reply format (R348). -/
def Dev.noteFormat (d : Dev) (b : Batch) : Dev :=
  if b.path = 0 then d
  else d.modCtl (b.path - 1) fun u => { u with
    srcFmt := (b.cmds.map Cmd.src).foldl (fun t s => uset t s (b.fd, b.brs, (uget t s).2.2)) u.srcFmt }

/-- The head and commit words (R303): the next entry's slot and the number of unexecuted entries. -/
def Dev.headWords (d : Dev) : List (Nat × Word) := [(0x2040, wordN d.jnl.head), (0x2041, wordN d.jnl.entries.length)]

/-- BATCH_COMMIT of the oldest batch that has passed its checks: entries, source states and status records, then the commit
word of each copy (R302), in reservations of the journal engine (R333). It waits while another reservation stands. -/
def Dev.batchCommit (d : Dev) (otp : List (Nat × Option Word)) (m14 m15 : CopyRead) : Dev :=
  match d.jnl.batches with
  | [] => d
  | b :: rest =>
    let d := d.jnlFlush
    if d.con.resv ≠ [] then d
    else
      let d := d.modJnl fun j => { j with batches := rest }
      let old := d.jnl
      let w := d.walk otp b.path b.cmds d.jnl
      let d := (d.readCopies 0x2040 m14 m15).readStanding (d.batchReads b)
      match d.batchFault (newCount w.2) with
      | some x => Dev.refuseBatch b.path (some x) w.2 0 d
      | none =>
        let x := Dev.commitCmds b.path w.2 ((d.setSources w.1.sources).noteFormat b) []
        (if x.2.isEmpty then x.1 else x.1.jnlPut old (x.2 ++ x.1.headWords)).jnlFlush

/-- The batches that wait for their commit are committed. -/
def Dev.commitAll (d : Dev) (otp : List (Nat × Option Word)) : Dev :=
  (List.range d.jnl.batches.length).foldl (fun d _ => d.batchCommit otp .ok .ok) d

/-- BATCH_CHECK (R301). -/
def Dev.batchCheck (d : Dev) (otp : List (Nat × Option Word)) (b : Batch) : Dev :=
  let d := d.commitAll otp
  let w := d.walk otp b.path b.cmds d.jnl
  if anyRefused w.2 then Dev.refuseBatch b.path none w.2 0 d
  else match d.batchFault (newCount w.2) with
    | some x => Dev.refuseBatch b.path (some x) w.2 0 d
    | none => d.modJnl fun j => { j with batches := j.batches ++ [b] }

/-- A batch of the host port (R292, R372): `spoiled` when the port refuses it. -/
def Dev.hostBatch (d : Dev) (otp : List (Nat × Option Word)) (words : List Word) (spoiled : Bool) : Dev :=
  if !d.sys.sealed then d.refuseWhole 0 0 St.halted
  else if spoiled then d.refuseWhole 0 0 St.format
  else match hostCmds words.length words with
    | none => d.refuseWhole 0 0 St.format
    | some cmds => d.batchCheck otp { cmds := cmds, path := 0 }

/-! ### Transfers on CAN (R294, R295) -/

/-- A partial transfer is discarded. -/
def Dev.discard (d : Dev) (src ctl : Nat) : Dev :=
  if d.jnl.transfers.any fun t => t.src == src && t.ctl == ctl then
    ((d.modJnl fun j => { j with transfers := j.transfers.filter fun t => !(t.src == src && t.ctl == ctl) }).bump
      F.JNL_CNT2_DISC 0).raise 111
  else d

/-- Every partial transfer of a controller is discarded, as it goes bus-off. -/
def Dev.discardAll (d : Dev) (ctl : Nat) : Dev :=
  d.each ((d.jnl.transfers.filter fun t => t.ctl == ctl).map Transfer.src) fun s d => d.discard s ctl

/-- A whole transfer: its commands form one batch. -/
def Dev.transferBatch (d : Dev) (otp : List (Nat × Option Word)) (src ctl : Nat) (bytes : List Byte) (fd brs : Bool) : Dev :=
  let len := leNat (bytes.take 2)
  let body := bytes.drop 2
  let whole := d.refuseWhole (ctl + 1) src St.format
  if !d.sys.sealed then d.refuseWhole (ctl + 1) src St.halted
  else if bytes.length < 2 ∨ body.length < len ∨ (body.drop len).any (fun b => b != 0) then whole
  else match canCmds len (body.take len) with
    | none => whole
    | some cmds =>
      if cmds.any fun c => c.src != src then whole
      else d.batchCheck otp { cmds := cmds, path := ctl + 1, fd := fd, brs := brs }

/-- The priority that the replies of a source copy (R294). -/
def Dev.notePriority (d : Dev) (src ctl prio : Nat) : Dev :=
  d.modCtl ctl fun u => { u with
    srcFmt := uset u.srcFmt src ((uget u.srcFmt src).1, (uget u.srcFmt src).2.1, prio) }

/-- The parser takes a command frame from controller `ctl`. -/
def Dev.takeFrame (d : Dev) (otp : List (Nat × Option Word)) (ctl : Nat) (f : CanFrame) : Dev :=
  let id := f.id.toNat
  let src := id % 256
  let frag := id / 2 ^ 8 % 16
  let last := id.testBit 12
  if !f.xtd || id / 2 ^ 21 % 32 != 0x10 || id / 2 ^ 13 % 256 != d.get F.JNL_CFG_NODE then d
  else
    let d := d.notePriority src ctl (id / 2 ^ 26)
    let d := if frag = 0 then d.discard src ctl else d
    let had := d.jnl.transfers.find? fun t => t.src == src && t.ctl == ctl
    let so := match had with
      | none => if frag = 0 then some [] else none
      | some t => if t.frag = frag then some t.bytes else none
    match so with
    | none => d.discard src ctl
    | some bs =>
      let bytes := bs ++ f.data.take (frameLen f)
      let ticks := match had with
        | none => 0
        | some t => t.ticks
      let d := d.modJnl fun j => { j with transfers := j.transfers.filter fun t => !(t.src == src && t.ctl == ctl) }
      if last then d.transferBatch otp src ctl bytes f.fdf f.brs
      else if frag = 15 then
        d.refuseWhole (ctl + 1) src (if d.sys.sealed then St.format else St.halted)
      else d.modJnl fun j => { j with
        transfers := j.transfers ++ [{ src := src, ctl := ctl, frag := frag + 1, bytes := bytes, ticks := ticks }] }

/-- COMMAND_FRAME_TAKEN: the oldest command frame of a controller goes to the parser. -/
def Dev.commandFrame (d : Dev) (otp : List (Nat × Option Word)) (ctl : Nat) : Dev :=
  match (d.ctl ctl).cmdq with
  | [] => d
  | f :: rest => (d.modCtl ctl fun u => { u with cmdq := rest }).takeFrame otp ctl f

/-- TRANSFER_TIMEOUT: eight ticks without the LAST frame. -/
def Dev.transferTimeout (d : Dev) (ctl src : Nat) : Dev :=
  if d.jnl.transfers.any fun t => t.src == src && t.ctl == ctl && decide (8 ≤ t.ticks) then d.discard src ctl else d

/-! ### Ageing (R300) -/

/-- SOURCE_AGE_OUT. Before the seal no tick counts and no TIMEOUT is loaded. -/
def Dev.ageOut (d : Dev) (src : Nat) : Dev :=
  match d.jnl.slotOf src, d.jnl.source src with
  | some i, some x =>
    if d.sys.sealed ∧ d.get F.JNL_CFG_TIMEOUT ≤ x.idle ∧ !d.jnl.busy src ∧ !(d.jnl.batches.any fun b => b.cmds.any fun c => c.src == src) then
      (d.setSources (uset d.jnl.sources i none)).raise 109
    else d
  | _, _ => d

/-! ### Execution (R305 to R308) -/

/-- A command as it executes. -/
structure Run where
  src : Nat
  seq : Nat
  code : Nat
  mask : Nat
  reqDone : Bool
  arg0 : Word
  arg1 : Word
  deriving DecidableEq, Repr

/-- What an execution leaves: the device, and its completion, `none` while it is pending. -/
structure Effect where
  dev : Dev
  fin : Option (Nat × Nat) := none

/-- The addresses of the mode and setpoint registers of an axis: `i` 0 to 3. -/
def cmdReg (k i : Nat) : Nat := F.AX_MODE.at_ k + i

/-- A write of one register on every axis of the mask, checked on all of them first (R50). -/
def Dev.writeAxes (d : Dev) (mask i : Nat) (w : Word) : Effect :=
  let axes := bitsOf 8 mask
  if axes.all fun k => (d.judge .journal (cmdReg k i) w).isSome then
    let x := regTake (cmdReg 0 i) w
    let old := d.jnl
    let d := d.each axes fun k d =>
      (d.setReg (cmdReg k i) x).modJnl fun j => { j with axisRec := uset j.axisRec (4 * k + i) x }
    { dev := d.jnlPut old (axes.map fun k => (0x1E00 + 8 * k + i, x)), fin := some (St.done, 0) }
  else { dev := d, fin := some (St.range, 0) }

/-- START (R305, R404, R418). A warden that a mismatch has stopped checks nothing and arms nothing: the command waits for it
(R383). -/
def Dev.jStart (d : Dev) (r : Run) : Effect :=
  let axes := d.maskAxes r.mask
  let op : PendOp := { src := r.src, seq := r.seq, start := true, reqDone := r.reqDone, mask := r.mask }
  if axes.any fun k => d.cst k != .safe || (d.jnl.opOf k).isSome then { dev := d, fin := some (St.refused, 0) }
  else if d.wdn.stopped then { dev := (d.addOp op).modJnl fun j => { j with toArm := j.toArm ++ axes } }
  else match axes.find? fun k => d.armReason k != 0 with
    | some k =>
      { dev := d.armRefused k, fin := some (St.refused, 0) }
    | none =>
      let d := (d.each axes fun k d => d.pullsOff k).addOp op
      { dev := (d.modJnl fun j => { j with toArm := j.toArm ++ axes }).armNext }

/-- STOP (R305). -/
def Dev.jStop (d : Dev) (r : Run) : Effect :=
  let d := d.each (bitsOf 8 r.mask) fun k d => match d.jnl.opOf k with
    | none => d
    | some o => if o.start then d.abandon o St.aborted else d.endOp o St.done
  let d := d.addOp { src := r.src, seq := r.seq, start := false, reqDone := r.reqDone, mask := r.mask }
  { dev := d.each (bitsOf 8 r.mask) fun k d => if d.cst k = .safe then d else d.requestStop k }

/-- ABORT (R307). -/
def Dev.jAbort (d : Dev) (r : Run) : Effect :=
  let t := r.arg0.toNat % 2 ^ 24
  match d.jnl.source r.src with
  | none => { dev := d, fin := some (St.notarget, 0) }
  | some x =>
    match d.jnl.ops.find? fun o => o.start && o.src == r.src && o.seq == t with
    | some o => { dev := d.abandon o St.aborted, fin := some (St.done, 0) }
    | none =>
      match x.record t with
      | none => { dev := d, fin := some (St.notarget, 0) }
      | some s =>
        if s.code = 4 ∧ s.st ≠ St.accepted ∧ (x.last + 2 ^ 24 - t) % 2 ^ 24 < 256 then { dev := d, fin := some (St.late, 0) }
        else { dev := d, fin := some (St.notarget, 0) }

/-- CLEAR_FAULT (R116, R270). -/
def Dev.jClear (d : Dev) (r : Run) : Effect :=
  if d.link.clr.isSome then { dev := d, fin := some (St.refused, 0) }
  else
    let d := d.each (bitsOf 8 r.mask) fun k d =>
      ((d.putB F.AX_SSTAT_SFAIL k false).putB F.AX_SSTAT_REVTO k false).putB F.AX_SSTAT_OBSLOST k false
    let axes := (d.maskAxes r.mask).foldl (fun m k => m ||| 1 <<< k) 0
    let req := d.clearReq axes (r.arg0.toNat % 16)
    let d := d.sendClear req
    { dev := d.modJnl fun j => { j with clr := some (r.src, r.seq, r.reqDone) } }

/-- PARAM (R305). -/
def Dev.jParam (d : Dev) (r : Run) : Effect :=
  let a := r.arg0.toNat % 2 ^ 16
  let old := d.jnl.params.find? fun p => p.1 == a
  if !hasLive a then { dev := d, fin := some (St.access, 0) }
  else match d.judgeLive a r.arg1 with
    | none => { dev := d, fin := some (St.range, 0) }
    | some w =>
      if old.isNone ∧ 256 ≤ d.jnl.params.length then { dev := d, fin := some (St.full, 0) }
      else
        let pair := match old with
          | none => d.jnl.params.length
          | some p => p.2.1
        let old := d.jnl
        let d := (d.setReg a (regTake a w)).modJnl fun j => { j with
          params := (j.params.filter fun p => p.1 != a) ++ [(a, pair, r.arg1)] }
        { dev := d.jnlPut old [(0x1E40 + 2 * pair, wordN a), (0x1E41 + 2 * pair, r.arg1)], fin := some (St.done, 0) }

/-- QUERY (R305). -/
def Dev.jQuery (d : Dev) (r : Run) : Effect :=
  let a := r.arg0.toNat % 2 ^ 16
  let window := decide (0x1C00 ≤ a ∧ a < 0x1E00 ∧ 0x40 ≤ a % 128 ∧ a % 128 < 0x60)
  if !isReg a || a == 0x1E05 || window then { dev := d, fin := some (St.access, 0) }
  else { dev := d, fin := some (St.done, if r.arg0.toNat.testBit 16 then fget (d.readReg a) 32 8 else fget (d.readReg a) 0 32) }

/-- The effect of a command (R305). A mask that names a disabled or secondary axis completes with ACCESS. -/
def Dev.jEffect (d : Dev) (r : Run) : Effect :=
  if !((bitsOf 8 r.mask).all fun k => d.primary k) then { dev := d, fin := some (St.access, 0) }
  else match r.code with
    | 2 => d.writeAxes r.mask (1 + r.arg1.toNat % 4) r.arg0
    | 3 => d.writeAxes r.mask 0 (wordN (r.arg0.toNat % 4))
    | 4 => d.jStart r
    | 5 => d.jStop r
    | 6 => d.jAbort r
    | 7 => d.jClear r
    | 8 => d.jParam r
    | 9 => d.jQuery r
    | _ => { dev := d, fin := some (St.done, 0) }

/-- A command executes: its effect and its completion (R305, R308). -/
def Dev.jRun (d : Dev) (r : Run) : Dev :=
  let x := d.jEffect r
  match x.fin with
  | none => x.dev
  | some f => x.dev.complete r.src r.seq r.code f.1 f.2 r.reqDone

/-- An entry leaves the unexecuted ones: EXEC is set, in the reservation that takes its effect (R304). -/
def Dev.takeEntry (d : Dev) (e : Entry) : Dev :=
  let d := d.jnlOpen
  let old := d.jnl
  let d := d.modJnl fun j => { j with entries := j.entries.filter fun x => x.slot != e.slot }
  d.jnlPut old (((e.words true).drop 1).take 1 ++ d.headWords.drop 1)

/-- The words of an entry are read from both copies (R312). -/
def Dev.readEntry (d : Dev) (e : Entry) : Dev := d.readStanding fun w => decide (4 * e.slot ≤ w ∧ w < 4 * e.slot + 4)

/-- An entry executes, unless the journal has halted. -/
def Dev.runEntry (d : Dev) (e : Entry) : Dev :=
  let d := d.readEntry e
  if d.jnl.mirror = 3 then d
  else (d.takeEntry e).jRun { src := e.src, seq := e.seq, code := e.code, mask := e.mask, reqDone := e.flags.testBit 2
                              arg0 := e.arg0, arg1 := e.arg1 }

/-- The journal slot: the due entries in acceptance order, up to 64 (R304). -/
def Dev.journalSlot (d : Dev) (m14 m15 : CopyRead) : Dev :=
  match (d.jnl.entries.filter fun e => !e.fresh).take 64 with
  | [] => d
  | e :: es => (e :: es).foldl Dev.runEntry (d.readCopies (4 * e.slot) m14 m15)

/-- The number of arguments of a command code (R291). -/
def nargOf (code : Nat) : Nat := [0, 0, 2, 1, 0, 0, 1, 1, 2, 1].getD code 0

/-- A command keeps the row of its code (R291): one that breaks it is refused with FORMAT and never executes. -/
def fitsRow (code : Nat) (e : JCmd) : Bool :=
  Cmd.layoutOk { src := e.src.toNat, seq := e.seq.toNat, code := code, mask := e.mask.toNat
                 flags := nargOf code, args := [e.arg0, e.arg1].take (nargOf code), tag := none }

/-- One command as the journal engine executes it, by itself; one that no batch can have brought has no effect (DESIGN
CHOICE, log entry 35). -/
def Dev.execCmd (d : Dev) (code : Nat) (e : JCmd) : Dev :=
  if !d.awake || !d.sys.sealed || !fitsRow code e then d
  else
    let r : Run := { src := e.src.toNat, seq := e.seq.toNat, code := code, mask := e.mask.toNat, reqDone := e.reqDone
                     arg0 := e.arg0, arg1 := e.arg1 }
    match d.jnl.entries.find? fun x => x.src == r.src && x.seq == r.seq && x.code == code with
    | none => d.jnlOpen.jRun r
    | some x =>
      let d := d.readEntry x
      if d.jnl.mirror = 3 then d else (d.takeEntry x).jRun r

/-! ### The restore after a reset (R311) -/

/-- JOURNAL_RESTORE: axis records, the parameter table in the order of last execution, and the pending operations. A CLEAR_FAULT
that awaited its confirmation completes with RESET, too (log entry 55). -/
def Dev.jnlRestore (d : Dev) : Dev :=
  let d := d.readStanding fun w => decide (w < 0x2050)
  let d := d.each (List.range 32) fun n d => d.setReg (cmdReg (n / 4) (n % 4)) (uget d.jnl.axisRec n)
  let d := d.jnl.params.foldl (fun d p => match d.judgeLive p.1 p.2.2 with
    | none => d
    | some w => d.setReg p.1 (regTake p.1 w)) d
  let d := d.modJnl fun j => { j with entries := j.entries.map fun e => { e with fresh := false } }
  let d := d.jnl.ops.foldl (fun d o => d.endOp o (if o.start then St.reset else St.done)) d
  match d.jnl.clr with
  | none => d
  | some r => (d.modJnl fun j => { j with clr := none }).complete r.1 r.2.1 7 St.reset 0 r.2.2

/-! ### Reading the acknowledgement FIFO (R293) -/

/-- A read of JNL_ACK removes the oldest record and places its second half in JNL_ACKD. -/
def Dev.ackRead (d : Dev) : Dev :=
  match d.jnl.fifo with
  | [] => d
  | a :: rest =>
    let d := (d.modJnl fun j => { j with fifo := rest }).put F.JNL_AFIFO_COUNT 0 rest.length
    (d.put F.JNL_ACKD_DATA 0 a.data).put F.JNL_ACKD_CODE 0 a.code

/-! ### Meanings -/

/-- An update of the device that reads Sinter. -/
def State.liftOtp (s : State) (f : List (Nat × Option Word) → Dev → Dev) : Host.Outcome State Fault Refusal :=
  s.lift (f s.otp)

/-- JOURNAL (R304); never late (R67; log entry 81). -/
def execJournal (slot : Fin 32) (m14 m15 : CopyRead) (s : State) : Host.Outcome State Fault Refusal :=
  s.lift fun d => d.slot slot 3 fun d => (d.journalSlot m14 m15, true)
/-- BATCH_COMMIT (R302). -/
def execBatchCommit (m14 m15 : CopyRead) (s : State) : Host.Outcome State Fault Refusal :=
  s.liftOtp fun otp d => d.batchCommit otp m14 m15
/-- SOURCE_AGE_OUT (R300). -/
def execSourceAgeOut (src : BitVec 8) (s : State) : Host.Outcome State Fault Refusal := s.lift fun d => d.ageOut src.toNat
/-- HELLO (R298). -/
def execHello (e : JCmd) (s : State) : Host.Outcome State Fault Refusal := s.lift fun d => d.execCmd 1 e
/-- SETPOINT (R305). -/
def execSetpoint (e : JCmd) (s : State) : Host.Outcome State Fault Refusal := s.lift fun d => d.execCmd 2 e
/-- MODE (R305). -/
def execMode (e : JCmd) (s : State) : Host.Outcome State Fault Refusal := s.lift fun d => d.execCmd 3 e
/-- START (R305). -/
def execStart (e : JCmd) (s : State) : Host.Outcome State Fault Refusal := s.lift fun d => d.execCmd 4 e
/-- STOP (R305). -/
def execStop (e : JCmd) (s : State) : Host.Outcome State Fault Refusal := s.lift fun d => d.execCmd 5 e
/-- ABORT (R307). -/
def execAbort (e : JCmd) (s : State) : Host.Outcome State Fault Refusal := s.lift fun d => d.execCmd 6 e
/-- CLEAR_FAULT (R116). -/
def execClearFault (e : JCmd) (s : State) : Host.Outcome State Fault Refusal := s.lift fun d => d.execCmd 7 e
/-- PARAM (R305). -/
def execParam (e : JCmd) (s : State) : Host.Outcome State Fault Refusal := s.lift fun d => d.execCmd 8 e
/-- QUERY (R305). -/
def execQuery (e : JCmd) (s : State) : Host.Outcome State Fault Refusal := s.lift fun d => d.execCmd 9 e
/-- COMMAND_FRAME_TAKEN (R295). -/
def execCommandFrameTaken (c : Fin 4) (s : State) : Host.Outcome State Fault Refusal :=
  s.liftOtp fun otp d => d.commandFrame otp c
/-- TRANSFER_TIMEOUT (R295). -/
def execTransferTimeout (c : Fin 4) (src : BitVec 8) (s : State) : Host.Outcome State Fault Refusal :=
  s.lift fun d => d.transferTimeout c src.toNat
/-- RESERVATION_RELEASE (R333). -/
def execReservationRelease (q : Fin 17) (s : State) : Host.Outcome State Fault Refusal := s.lift fun d => d.releaseOf q

end Sys2Proof.Machine
end

