-- ==== Sys2Proof/Machine/Can.lean ====
section
/-! DEFINITION. The CAN FD controllers (chapter 16): transmit buffers and their release, replies of the journal, filters and
receive storage, receive DMA, fault confinement. -/

namespace Sys2Proof.Machine

/-! ### Transmit buffers (R343 to R347) -/

/-- The byte of CAN_TXSTAT of a buffer, its STATE, and its LATE flag. -/
def txAll (n : Nat) : Fld := { F.CAN_TXSTAT with lo := 8 * n, width := 8 }
def txSt (n : Nat) : Fld := { F.CAN_TXSTAT with lo := 8 * n, width := 3 }
def txLate (n : Nat) : Fld := { F.CAN_TXSTAT with lo := 8 * n + 4, width := 1 }

/-- The flags of a buffer that is DONE, as bits of its byte: OK, LATE, BOFF, CANCEL, INVALID. -/
def txOk : Nat := 8
def txLateBit : Nat := 16
def txBoff : Nat := 32
def txCancelBit : Nat := 64
def txInvalid : Nat := 128

/-- Word `i` of a buffer. -/
def txWord (n i : Nat) : Fld := F.TXB_ID0.nth (16 * n + i)

/-- The error event of a controller. -/
def Dev.canErr (d : Dev) (c : Nat) : Dev := d.raise (67 + 4 * c)

/-- TXB2 belongs to the journal. -/
def Dev.rplBuf (d : Dev) (c n : Nat) : Bool := n == 2 && d.flag F.CAN_CTL_RPLBUF c

/-- A buffer becomes DONE: the transmit event, but not for a reply frame (R346, R348). -/
def Dev.txEnd (d : Dev) (c n flags : Nat) : Dev :=
  let d := d.put (txAll n) c (4 + flags)
  if n = 2 ∧ (d.ctl c).txReply then d.modCtl c fun u => { u with txReply := false } else d.raise (66 + 4 * c)

/-- The stamp of the attempt that ends a buffer (R342). -/
def Dev.txStamp (d : Dev) (c n : Nat) : Dev := d.setReg ((txWord n 15).at_ c) (wordN (d.ctl c).sof)

/-- The buffer of the attempt in progress. -/
def Dev.txActive (d : Dev) (c : Nat) : Option Nat := (List.range 3).find? fun n => d.get (txSt n) c == 3

/-- A request is invalid (R343). -/
def Dev.txBad (d : Dev) (c n : Nat) : Bool :=
  let w := d.reg ((txWord n 0).at_ c)
  let xtd := fget w 29 1
  let fdf := fget w 30 1
  let brs := fget w 31 1
  (brs == 1 && fdf == 0) || (fdf == 1 && !d.flag F.CAN_CTL_FDEN c) || (xtd == 0 && fget w 11 18 != 0) ||
    d.flag F.CAN_CTL_LISTEN c

/-- CAN_TXREQ.REQ; `none` when it is refused (R343, R348). -/
def Dev.txRequest (d : Dev) (c mask : Nat) : Option Dev :=
  if (bitsOf 3 mask).all fun n => !d.rplBuf c n && (d.get (txSt n) c == 0 || d.get (txSt n) c == 4) then
    some (d.each (bitsOf 3 mask) fun n d =>
      if d.txBad c n then d.txEnd c n txInvalid
      else (d.put (txAll n) c 1).modCtl c fun u => { u with reqAt := uset u.reqAt n d.clk.now })
  else none

/-- CAN_TXREQ.CANCEL; `none` when it is refused (R347, R348). -/
def Dev.txCancel (d : Dev) (c mask : Nat) : Option Dev :=
  if (bitsOf 3 mask).all fun n => !d.rplBuf c n then
    some (d.each (bitsOf 3 mask) fun n d =>
      if d.get (txSt n) c = 1 ∨ d.get (txSt n) c = 2 then d.txEnd c n txCancelBit
      else if d.get (txSt n) c = 3 then d.putB (txLate n) c true
      else d)
  else none

/-- A write of CAN_TXREQ: REQ and CANCEL for one buffer are refused together (R347). -/
def Dev.txReqWrite (d : Dev) (c : Nat) (w : Word) : Option Dev :=
  let req := fget w 0 3
  let can := fget w 4 3
  if req &&& can ≠ 0 then none
  else match d.txRequest c req with
    | none => none
    | some d => d.txCancel c can

/-- A write of a word of a transmit buffer; `none` when it is refused (R343, R348). -/
def Dev.txWrite (d : Dev) (c off : Nat) (w : Word) : Option Dev :=
  let n := (off - 0x10) / 16
  let st := d.get (txSt n) c
  if d.rplBuf c n || (st != 0 && st != 4) then none
  else
    let d := if st = 4 then d.put (txAll n) c 0 else d
    let i := off % 16
    let x := if i = 0 then w &&& 0xFFFFFFFF#40 else if i = 1 then w &&& 0xF#40 else w
    some (if i = 15 then d else d.setReg (0x1C00 + 128 * c + off) x)

/-! ### Replies (R296, R348) -/

/-- A reply record as bytes (R296). -/
def replyBytes (r : Nat × Nat × Nat) : List Byte := leBytes 3 r.1 ++ leBytes 1 r.2.1 ++ leBytes 4 r.2.2

/-- The number of records that a reply frame of `k` records is padded to, and its DLC. -/
def replyPad (k : Nat) : Nat := if k = 5 then 6 else if k = 7 then 8 else k
def replyDlc (k : Nat) : Nat := [0, 8, 10, 12, 13, 14, 14, 15, 15].getD k 15

/-- A reply frame with its records, as it goes into TXB2 (R294, R296). -/
def Dev.replyFrame (d : Dev) (r : Reply) : CanFrame :=
  let k := replyPad r.recs.length
  { id := BitVec.ofNat 29 (r.prio * 2 ^ 26 + 0x11 * 2 ^ 21 + d.get F.JNL_CFG_NODE 0 * 2 ^ 13 + r.src)
    xtd := true, fdf := r.fd, brs := r.brs, esi := false, rtr := false
    dlc := BitVec.ofNat 4 (if r.fd then replyDlc k else 8)
    data := r.recs.flatMap replyBytes ++ List.replicate (8 * (k - r.recs.length)) 0xFF#8, stamp := 0 }

/-- The words of a frame in a transmit buffer: identifier, DLC and data (R354). -/
def frameWord (f : CanFrame) (i : Nat) : Word :=
  if i = 0 then wordN (f.id.toNat + b2n f.xtd * 2 ^ 29 + b2n f.fdf * 2 ^ 30 + b2n f.brs * 2 ^ 31)
  else if i = 1 then wordN f.dlc.toNat
  else wordN (leNat ((f.data.drop (5 * (i - 2))).take 5))

/-- TXB2 takes the next eligible reply frame once the one before it is DONE; the frames of a controller that is halted or
bus-off stay queued (R348, R358). -/
def Dev.loadReply (d : Dev) (c : Nat) : Dev :=
  if d.flag F.CAN_CTL_RPLBUF c && (d.get (txSt 2) c == 0 || d.get (txSt 2) c == 4) && d.get F.CAN_STAT_STATE c != 2 &&
      (d.ctl c).mode != .off then
    match (d.ctl c).replies with
    | [] => d
    | r :: rest =>
      if r.due then
        let d := d.modCtl c fun u => { u with replies := rest, txReply := true }
        let f := d.replyFrame r
        let d := d.each (List.range 15) fun i d => d.setReg ((txWord 2 i).at_ c) (frameWord f i)
        d.put (txAll 2) c 2
      else d
  else d

/-- The release of a controller (R344): PENDING buffers become READY, but not one requested in this core cycle, and the reply
frames in the queue become eligible (R348). -/
def Dev.canRelease (d : Dev) (c : Nat) : Dev :=
  let d := d.each (List.range 3) fun n d =>
    if d.get (txSt n) c = 1 ∧ uget (d.ctl c).reqAt n ≠ d.clk.now then d.put (txAll n) c 2 else d
  (d.modCtl c fun u => { u with replies := u.replies.map fun r => { r with due := true } }).loadReply c

/-- The controllers that no CANTX slot of the active table names are released at the tick. -/
def Dev.canTickRelease (d : Dev) : Dev :=
  let named := (List.range 32).foldl (fun m s => if slotAction (d.aslot s) = 5 then m ||| slotMask (d.aslot s) else m) 0
  d.each (List.range 4) fun c d => if named.testBit c then d else d.canRelease c

/-! ### Fault confinement (R356 to R358) -/

/-- The controller takes part in the bus. -/
def Dev.onBus (d : Dev) (c : Nat) : Bool := (d.ctl c).mode == .on && decide (d.get F.CAN_STAT_STATE c < 2)

/-- STATE takes a value; each change raises the error event. -/
def Dev.canState (d : Dev) (c st : Nat) : Dev :=
  if d.get F.CAN_STAT_STATE c = st then d else (d.put F.CAN_STAT_STATE c st).canErr c

/-- EWARN follows the counters; each change raises the error event (R361). -/
def Dev.canWarn (d : Dev) (c : Nat) : Dev :=
  let on := decide (96 ≤ d.get F.CAN_STAT_TEC c ∨ 96 ≤ d.get F.CAN_STAT_REC c)
  (d.raiseIf (on != d.flag F.CAN_STAT_EWARN c) (67 + 4 * c)).putB F.CAN_STAT_EWARN c on

/-- STATE and EWARN follow the counters of a controller on the bus. -/
def Dev.canCounters (d : Dev) (c : Nat) : Dev :=
  let d := d.canWarn c
  if d.onBus c then
    d.canState c (if 127 < d.get F.CAN_STAT_TEC c ∨ 127 < d.get F.CAN_STAT_REC c then 1 else 0)
  else d

/-- The controller leaves the bus on a HALT. -/
def Dev.goOffline (d : Dev) (c : Nat) : Dev :=
  ((d.modCtl c fun u => { u with mode := .off, halting := false, rxBusy := false }).putB F.CAN_STAT_RECOV c false).canState c 3

/-- TEC exceeds 255: the controller enters bus-off, and the attempt that took it there ends with that (R356). -/
def Dev.tecOver (d : Dev) (c : Nat) : Bool := decide (255 < d.get F.CAN_STAT_TEC c)

/-- A HALT that waited for the end of the frame in progress takes effect; the entry to bus-off comes first. -/
def Dev.haltDue (d : Dev) (c : Nat) : Dev := if (d.ctl c).halting && !d.tecOver c then d.goOffline c else d

/-- CAN_CTL.HALT written on C0 to C2; on C3 it is read-only 0 (R358). `busy`: another node's frame is in progress. -/
def Dev.canHalt (d : Dev) (c : Nat) (on busy : Bool) : Dev :=
  if c = 3 then d
  else
    let d := d.putB F.CAN_CTL_HALT c on
    let u := d.ctl c
    if on then
      if u.mode = .off ∨ u.mode = .waitTick then d
      else if (d.txActive c).isSome || (d.onBus c && (busy || u.rxBusy)) then
        d.modCtl c fun u => { u with halting := true, rxBusy := busy || u.rxBusy }
      else d.goOffline c
    else
      let d := d.modCtl c fun u => { u with halting := false }
      if u.mode = .off ∧ d.sys.sealed ∧ d.clk.ticked ∧ d.flag F.CAN_CTL_EN c then
        (d.modCtl c fun u => { u with mode := .integrating }).loadReply c
      else d

/-- The first tick after the seal: bus integration begins (R338). -/
def Dev.canFirstTick (d : Dev) : Dev :=
  d.each (List.range 4) fun c d =>
    if (d.ctl c).mode = .waitTick then
      d.modCtl c fun u => { u with mode := if d.flag F.CAN_CTL_HALT c then .off else .integrating }
    else d

/-- Recovery from bus-off begins (R357). -/
def Dev.canRecover (d : Dev) (c : Nat) : Dev :=
  ((d.putB F.CAN_STAT_RECOV c true).put F.CAN_STAT_RECCNT c 0).modCtl c fun u => { u with mode := .recovering }

/-- The entry to bus-off (R356): the frame in progress stops, every buffer that is not EMPTY or DONE ends, the reply queue
empties and partial transfers are discarded. -/
def Dev.enterBusOff (d : Dev) (c : Nat) : Dev :=
  let d := d.each (List.range 3) fun n d =>
    let st := d.get (txSt n) c
    if st = 0 ∨ st = 4 then d
    else
      let late := 16 * d.get (txLate n) c
      (if st = 3 then d.txStamp c n else d).txEnd c n (txBoff + late)
  let d := d.modCtl c fun u => { u with replies := [], sending := none, rxBusy := false, halting := false }
  let d := (d.discardAll c).canState c 2
  if c = 3 then d.canRecover c else if d.flag F.CAN_CTL_HALT c then d.goOffline c else d

/-- CAN_BUS_INTEGRATION: 11 recessive bits in a row. A controller that integrates joins the bus with its error counters as
they are; one that recovers from bus-off counts the sequence (R357). -/
def Dev.canIntegrate (d : Dev) (c : Nat) : Dev :=
  match (d.ctl c).mode with
  | .integrating =>
    let d := d.modCtl c fun u => { u with mode := .on }
    if d.tecOver c then d.enterBusOff c else (d.canState c 0).canCounters c
  | .recovering => d.put F.CAN_STAT_RECCNT c (min 127 (d.get F.CAN_STAT_RECCNT c + 1))
  | _ => d

/-- BUS_OFF: TEC exceeds 255. -/
def Dev.canBusOff (d : Dev) (c : Nat) : Dev := if d.onBus c && d.tecOver c then d.enterBusOff c else d

/-- CAN_CTL.BOREC: `none` when it is refused (R357). -/
def Dev.canBorec (d : Dev) (c : Nat) : Option Dev :=
  if c = 3 ∨ d.get F.CAN_STAT_STATE c ≠ 2 then none
  else if d.flag F.CAN_STAT_RECOV c then some d
  else some (d.canRecover c)

/-- BUS_OFF_RECOVERY_DONE: 128 occurrences of 11 recessive bits. -/
def Dev.canRecovered (d : Dev) (c : Nat) : Dev :=
  if (d.ctl c).mode = .recovering then
    let d := (d.put F.CAN_STAT_TEC c 0).put F.CAN_STAT_REC c 0
    let d := (d.putB F.CAN_STAT_RECOV c false).put F.CAN_STAT_RECCNT c 128
    ((d.modCtl c fun u => { u with mode := .on }).canState c 0).canWarn c
  else d

/-- An error of a controller: LEC and LECD. -/
def Dev.canLec (d : Dev) (c kind : Nat) (dataPhase : Bool) : Dev := (d.put F.CAN_STAT_LEC c kind).putB F.CAN_STAT_LECD c dataPhase

/-- The end of another node's frame: a HALT that waited for it takes effect. -/
def Dev.rxEnd (d : Dev) (c : Nat) : Dev := (d.modCtl c fun u => { u with rxBusy := false }).haltDue c

/-- CAN_RECEIVE_ERROR (R356): the frame and its error frame end. -/
def Dev.canRxError (d : Dev) (c : Nat) (inc : RxIncrement) (kind : Nat) (dataPhase : Bool) : Dev :=
  if d.onBus c then
    (((d.bump F.CAN_STAT_REC c (b2n inc.first + 8 * inc.more)).canLec c kind dataPhase).canCounters c).rxEnd c
  else d

/-! ### Sending (R341, R345, R346, R359) -/

/-- The place of an identifier in arbitration: base frames are compared with extended ones as they meet on the bus. -/
def arbKey (w : Word) : Nat :=
  if fget w 29 1 = 1 then fget w 18 11 * 2 ^ 19 + 2 ^ 18 + fget w 0 18 else fget w 0 11 * 2 ^ 19

/-- The buffer that the controller offers (R345). -/
def Dev.txOffer (d : Dev) (c : Nat) : Option Nat :=
  let ready := (List.range 3).filter fun n => d.get (txSt n) c == 2
  if d.flag F.CAN_CTL_TXORD c then ready.head?
  else ready.foldl (fun best n => match best with
    | none => some n
    | some m => if arbKey (d.reg ((txWord n 0).at_ c)) < arbKey (d.reg ((txWord m 0).at_ c)) then some n else some m) none

/-- The frame that a buffer sends (R337, R343): its words, as many bytes as its DLC says, never a remote frame, and in an FD
frame ESI from the controller's own error state. -/
def Dev.txFrame (d : Dev) (c n : Nat) : CanFrame :=
  let word := fun i => d.reg ((txWord n i).at_ c)
  let fdf := fget (word 0) 30 1 == 1
  let dlc := fget (word 1) 0 4
  { id := BitVec.ofNat 29 (fget (word 0) 0 29), xtd := fget (word 0) 29 1 == 1, fdf := fdf, brs := fget (word 0) 31 1 == 1
    esi := fdf && d.get F.CAN_STAT_STATE c == 1, rtr := false, dlc := BitVec.ofNat 4 dlc
    data := ((tabulate 13 fun i => leBytes 5 (word (2 + i)).toNat).flatten).take (dlcBytes fdf dlc)
    stamp := wordN d.timeBase }

/-- CAN_TX_START: the SOF of the offered buffer in this cycle. -/
def Dev.txStart (d : Dev) (c : Nat) : Dev :=
  if d.onBus c && !d.flag F.CAN_CTL_LISTEN c && (d.txActive c).isNone && !d.tecOver c && !(d.ctl c).halting then
    match d.txOffer c with
    | none => d
    | some n => (d.put (txAll n) c 3).modCtl c fun u =>
      { u with sof := d.timeBase, sending := some (d.txFrame c n), rxBusy := false }
  else d

/-- The measured transmitter delay (R341). -/
def Dev.canTdc (d : Dev) (c n : Nat) (tdcv : Option Nat) : Dev :=
  let w := d.reg ((txWord n 0).at_ c)
  match tdcv with
  | none => d
  | some v =>
    if d.flag F.CAN_DBT_TDCEN c && fget w 30 1 == 1 && fget w 31 1 == 1 then
      let d := d.put F.CAN_STAT_TDCV c (min v 127)
      if 127 < v then (d.putB F.CAN_CNT2_TDCSAT c true).canErr c else d
    else d

/-- The buffer of the attempt in progress, unless the attempt has failed and the controller enters bus-off. -/
def Dev.txRuns (d : Dev) (c : Nat) : Option Nat := if d.tecOver c then none else d.txActive c

/-- The controller has stopped sending. -/
def Dev.txOver (d : Dev) (c : Nat) : Dev := d.modCtl c fun u => { u with sending := none }

/-- CAN_TX_DONE: the frame is valid for the transmitter. Bit errors in an overload flag behind it, and dominant bits after that
flag, add 8 each to TEC (ISO 11898-1, log entry 32). -/
def Dev.txFrameDone (d : Dev) (c : Nat) (e : TxEnd) : Dev :=
  match d.txRuns c with
  | none => d
  | some n =>
    let late := 16 * d.get (txLate n) c
    let d := ((d.canTdc c n e.tdcv).txStamp c n).put F.CAN_STAT_TEC c (d.get F.CAN_STAT_TEC c - 1)
    let d := match e.kind with
      | none => d
      | some k => d.canLec c k false
    let d := d.bump F.CAN_STAT_TEC c (8 * e.more)
    ((((d.txOver c).txEnd c n (txOk + late)).canCounters c).haltDue c).loadReply c

/-- What an error adds to TEC (ISO 11898-1, log entry 32): 8, but nothing for a stuff error in arbitration or an
acknowledgement error of an error-passive transmitter that the standard exempts; and 8 for each further event of the error
frame. -/
def Dev.txErrorInc (d : Dev) (c : Nat) (e : TxError) : Nat :=
  (if e.exempt && (e.kind.val == 1 || (e.kind.val == 3 && d.get F.CAN_STAT_STATE c == 1)) then 0 else 8) + 8 * e.more

/-- The error counting of an attempt that meets an error. -/
def Dev.txErrorCount (d : Dev) (c : Nat) (e : TxError) : Dev :=
  let d := (d.bump F.CAN_STAT_TEC c (d.txErrorInc c e)).canLec c e.kind e.dataPhase
  let d := if e.collision then (d.bump F.CAN_CNT_IDCOL c).canErr c else d
  d.canCounters c

/-- A lost attempt ends: back to READY, or DONE after a late cancel. -/
def Dev.txBack (d : Dev) (c n : Nat) : Dev :=
  if d.get (txLate n) c = 1 then (d.txStamp c n).txEnd c n txLateBit else d.put (txAll n) c 2

/-- CAN_TX_LOST. After lost arbitration the winner's frame goes on. After an error that takes the controller to bus-off the
buffer stays as it is until the entry to bus-off ends it (R356, R362). -/
def Dev.txLost (d : Dev) (c : Nat) (why : TxLoss) : Dev :=
  match d.txRuns c with
  | none => d
  | some n =>
    match why with
    | .arbitration => (((d.txOver c).txBack c n).modCtl c fun u => { u with rxBusy := true }).loadReply c
    | .error e =>
      let d := ((d.canTdc c n e.tdcv).txErrorCount c e).txOver c
      if d.tecOver c then d else ((d.txBack c n).haltDue c).loadReply c

/-! ### Filters (R349) -/

/-- A filter matches a data frame. -/
def filterMatches (w : Word × Word) (f : CanFrame) : Bool :=
  fget w.1 30 3 != 0 && (fget w.1 29 1 == 1) == f.xtd && (f.id.toNat ^^^ fget w.1 0 29) &&& fget w.2 0 29 == 0

/-- The filter that decides a frame, with its ACTION. -/
def Dev.filterOf (d : Dev) (c : Nat) (f : CanFrame) : Option (Nat × Nat) :=
  match (List.range 64).find? fun i => filterMatches (uget (d.ctl c).filters i) f with
  | none => none
  | some i => some (i, fget (uget (d.ctl c).filters i).1 30 3)

/-! ### Receive DMA (R355) -/

/-- The DMA stops. -/
def Dev.dmaFail (d : Dev) (c : Nat) : Dev :=
  ((d.modCtl c fun u => { u with dmaStop := true }).putB F.CAN_CNT2_DMAERR c true).canErr c

/-- The DMA channel has an element to move and room in its ring. -/
def Dev.dmaReady (d : Dev) (c : Nat) : Bool :=
  let slots := d.get F.CAN_DMA_SLOTS c + 1
  d.awake && d.sys.sealed && d.flag F.CAN_DMA_EN c && !(d.ctl c).dmaStop && !(d.ctl c).fifo.isEmpty &&
    decide ((d.get F.CAN_DMAP_WR c + 1) % slots ≠ d.get F.CAN_DMAP_RD c)

/-- The Caldera word at which the next slot of the ring begins. -/
def Dev.dmaAddr (d : Dev) (c : Nat) : Nat := d.get F.CAN_DMA_BASE c + 16 * d.get F.CAN_DMAP_WR c

/-- The DMA channel requests its next burst of 16 words; one that its map refuses stops it (R320, R355). -/
def Dev.dmaRequest (d : Dev) (c : Nat) : Dev :=
  let b := bankOf (d.dmaAddr c)
  if !d.dmaReady c || (d.requestOf b (13 + c)).isSome then d
  else if !d.dmaMay c b then d.conDeny.dmaFail c
  else d.bulkRequest (13 + c) (d.dmaAddr c) 16

/-! ### Receiving (R349 to R354) -/

/-- A frame for the RX FIFO (R351). -/
def Dev.toFifo (d : Dev) (c : Nat) (e : CanElem) : Dev :=
  if 8 * 2 ^ d.get F.CAN_CTL_ESZ c < frameLen e.frame then (d.bump F.CAN_CNT_OVS c).canErr c
  else if 32 ≤ (d.ctl c).fifo.length then (d.bump F.CAN_CNT_RXLOST c).canErr c
  else
    let d := d.modCtl c fun u => { u with fifo := u.fifo ++ [e] }
    (d.raiseIf (decide (d.get F.CAN_CTL_WMK c + 1 ≤ (d.ctl c).fifo.length)) (64 + 4 * c)).dmaRequest c

/-- A frame for the priority buffer (R353). -/
def Dev.toPrb (d : Dev) (c : Nat) (e : CanElem) : Dev :=
  let u := d.ctl c
  let lost := fun (d : Dev) (b : Bool) => if b then (d.bump F.CAN_CNT2_PRBLOST c).canErr c else d
  if d.flag F.CAN_RXSTAT_LOCKP c then (lost d u.hold.isSome).modCtl c fun u => { u with hold := some e }
  else ((lost d u.prb.isSome).modCtl c fun u => { u with prb := some e }).raise (65 + 4 * c)

/-- A frame goes where its deciding filter sends it; a remote frame is counted (R337, R350). -/
def Dev.route (d : Dev) (c : Nat) (f : CanFrame) : Dev :=
  if f.rtr then d.bump F.CAN_CNT2_RMT c
  else match d.filterOf c f with
    | none => d
    | some (i, act) =>
      let e : CanElem := { frame := f, filter := i }
      match act with
      | 1 => d.toFifo c e
      | 2 => d.toPrb c e
      | 3 => d.modCtl c fun u => { u with cmdq := u.cmdq ++ [f] }
      | _ => d

/-- CAN_FRAME_RX: a frame is valid for the receiver; an FD frame on a classical node is a form error (R337). -/
def Dev.canRx (d : Dev) (c : Nat) (f : CanFrame) : Dev :=
  if !d.onBus c then d
  else if f.fdf && !d.flag F.CAN_CTL_FDEN c then d.canRxError c {} 2 false
  else
    let rec_ := d.get F.CAN_STAT_REC c
    let d := if 127 < rec_ then (d.put F.CAN_STAT_REC c (119 + d.freeNat % 9)).tick1 else d.put F.CAN_STAT_REC c (rec_ - 1)
    let d := d.canCounters c
    (d.route c f).rxEnd c

/-- The effect of a read of a window word: it locks its element, and word 15 releases it (R352). -/
def Dev.canWindow (d : Dev) (c off : Nat) : Dev :=
  let u := d.ctl c
  if off < 16 then
    if u.prb.isNone then d
    else if off = 15 then
      let d := (d.modCtl c fun u => { u with prb := u.hold, hold := none }).putB F.CAN_RXSTAT_LOCKP c false
      d.raiseIf u.hold.isSome (65 + 4 * c)
    else d.putB F.CAN_RXSTAT_LOCKP c true
  else if u.fifo.isEmpty || d.flag F.CAN_DMA_EN c then d
  else if off = 31 then (d.modCtl c fun u => { u with fifo := u.fifo.drop 1 }).putB F.CAN_RXSTAT_LOCKF c false
  else d.putB F.CAN_RXSTAT_LOCKF c true

/-- The burst of a DMA channel that has been requested ends with an error tag (R355). -/
def Dev.dmaError (d : Dev) (c : Nat) : Dev :=
  let b := bankOf (d.dmaAddr c)
  match d.requestOf b (13 + c) with
  | none => d
  | some r => (d.leaveQueue b fun x => x == r).dmaFail c

/-- CAN_DMA_WRITE: the bank grants the burst of the oldest element, which goes into the ring, or the burst fails. -/
def Dev.dmaWrite (d : Dev) (c : Nat) (ok : Bool) : Dev :=
  let d := d.dmaRequest c
  let b := bankOf (d.dmaAddr c)
  if !ok then d.dmaError c
  else
    let x := d.granted b fun r => r.req == 13 + c
    match x.2, (d.ctl c).fifo with
    | some r, e :: rest =>
      let a := d.dmaAddr c
      let d := (x.1.burstEnds b r).conWrites (tabulate 16 fun i => (a + i, e.word i))
      let slots := d.get F.CAN_DMA_SLOTS c + 1
      let next := (d.get F.CAN_DMAP_WR c + 1) % slots
      let d := (d.modCtl c fun u => { u with fifo := rest }).put F.CAN_DMAP_WR c next
      (d.raiseIf (decide (d.get F.CAN_CTL_WMK c + 1 ≤ (next + slots - d.get F.CAN_DMAP_RD c) % slots)) (64 + 4 * c)).dmaRequest c
    | _, _ => d

/-! ### Meanings -/

/-- CANTX (R344). -/
def execCantx (slot : Fin 32) (s : State) : Host.Outcome State Fault Refusal :=
  s.lift fun d => d.slot slot 5 fun d => (d.each (bitsOf 4 (slotMask (d.aslot slot))) fun c d => d.canRelease c, true)
/-- CAN_BUS_INTEGRATION (R338). -/
def execCanBusIntegration (c : Fin 4) (s : State) : Host.Outcome State Fault Refusal := s.lift fun d => d.canIntegrate c
/-- CAN_FRAME_RX (R350). -/
def execCanFrameRx (c : Fin 4) (f : CanFrame) (s : State) : Host.Outcome State Fault Refusal :=
  if f.wf then s.lift fun d => d.canRx c f else .fault .illFormed
/-- CAN_TXREQ_REQ (R343). -/
def execCanTxreqReq (c : Fin 4) (mask : BitVec 3) (s : State) : Host.Outcome State Fault Refusal :=
  s.lift fun d => if d.hostUp then d.hostWrite (F.CAN_TXREQ.at_ c) (d.txRequest c mask.toNat) else d
/-- CAN_TXREQ_CANCEL (R347). -/
def execCanTxreqCancel (c : Fin 4) (mask : BitVec 3) (s : State) : Host.Outcome State Fault Refusal :=
  s.lift fun d => if d.hostUp then d.hostWrite (F.CAN_TXREQ.at_ c) (d.txCancel c mask.toNat) else d
/-- CAN_TX_START in core cycle `t` of the frame (R346). -/
def execCanTxStart (c : Fin 4) (t : Nat) (s : State) : Host.Outcome State Fault Refusal :=
  s.lift fun d => (d.at_ t).txStart c
/-- CAN_TX_DONE (R346). -/
def execCanTxDone (c : Fin 4) (e : TxEnd) (s : State) : Host.Outcome State Fault Refusal :=
  s.lift fun d => d.txFrameDone c e
/-- CAN_TX_LOST (R346). -/
def execCanTxLost (c : Fin 4) (why : TxLoss) (s : State) : Host.Outcome State Fault Refusal := s.lift fun d => d.txLost c why
/-- CAN_RECEIVE_ERROR (R356). -/
def execCanReceiveError (c : Fin 4) (inc : RxIncrement) (kind : Fin 8) (dataPhase : Bool) (s : State) :
    Host.Outcome State Fault Refusal :=
  s.lift fun d => d.canRxError c inc kind dataPhase
/-- BUS_OFF (R356). -/
def execBusOff (c : Fin 4) (s : State) : Host.Outcome State Fault Refusal := s.lift fun d => d.canBusOff c
/-- BUS_OFF_RECOVERY_DONE (R357). -/
def execBusOffRecoveryDone (c : Fin 4) (s : State) : Host.Outcome State Fault Refusal := s.lift fun d => d.canRecovered c
/-- BOREC (R357). -/
def execBorec (c : Fin 4) (s : State) : Host.Outcome State Fault Refusal :=
  s.lift fun d => if d.hostUp then d.hostWrite (F.CAN_CTL.at_ c) (d.canBorec c) else d
/-- HALT_CONTROLLER (R358). -/
def execHaltController (c : Fin 4) (on : HaltWrite) (s : State) : Host.Outcome State Fault Refusal :=
  s.lift fun d => if d.hostUp then d.canHalt c on.halt on.busy else d
/-- CAN_DMA_WRITE (R355). -/
def execCanDmaWrite (c : Fin 4) (ok : Bool) (s : State) : Host.Outcome State Fault Refusal := s.lift fun d => d.dmaWrite c ok

end Sys2Proof.Machine
end

