-- ==== Sys2Proof/Machine/Fbk.lean ====
section
/-! DEFINITION. Sine/cosine position and speed feedback (chapter 8), and the angle of a vector. -/

namespace Sys2Proof.Machine

/-! ### The angle of a vector (R160) -/

/-- atan(2^−i) in units of 2^−60 of a turn, i from 0 to 43. -/
def atanTable : List Nat :=
  [144115188075855872, 85076163258429574, 44951908161305065, 22818290470345122, 11453424468330927, 5732295643252264,
   2866847280169571, 1433511120421931, 716766496754739, 358384615492275, 179192478636968] ++
  [89596260679883, 44798133010118, 22399066838831, 11199533461137, 5599766735784, 2799883368544, 1399941684353,
   699970842187, 349985421095, 174992710548, 87496355274] ++
  [43748177637, 21874088818, 10937044409, 5468522205, 2734261102, 1367130551, 683565276, 341782638, 170891319,
   85445659, 42722830] ++
  [21361415, 10680707, 5340354, 2670177, 1335088, 667544, 333772, 166886, 83443, 41722, 20861]

/-- Vectoring: the vector is turned onto the x axis step by step, and the angle accumulates. -/
def vectoring : List Nat → Nat → Int → Int → Int → Int
  | [], _, _, _, z => z
  | t :: ts, i, x, y, z =>
    if 0 < y then vectoring ts (i + 1) (x + floorDiv y (2 ^ i)) (y - floorDiv x (2 ^ i)) (z + t)
    else vectoring ts (i + 1) (x - floorDiv y (2 ^ i)) (y + floorDiv x (2 ^ i)) (z - t)

/-- The angle of a vector with 0 < lo < hi, in 2^−60 of a turn, below one eighth. -/
def octantAngle (lo hi : Nat) : Nat :=
  (vectoring atanTable 0 (((hi * 2 ^ 48 : Nat) : Int)) (((lo * 2 ^ 48 : Nat) : Int)) 0).toNat

/-- floor(atan2(s, c) × 4,096 / 2π) modulo 4,096, for a vector other than 0. Angles that are whole eighths of a turn are
exact; no other vector of integers lies on a count. -/
def phiFloor (s c : Int) : Nat :=
  let a := s.natAbs
  let b := c.natAbs
  let unit := 2 ^ 60
  let first :=
    if a = 0 then 0 else if b = 0 then unit / 4 else if a = b then unit / 8
    else if a < b then octantAngle a b else unit / 4 - octantAngle b a
  let turn :=
    if 0 ≤ c then (if 0 ≤ s then first else unit - first)
    else (if 0 ≤ s then unit / 2 - first else unit / 2 + first)
  turn / 2 ^ 48 % 4096

/-- round(√(s² + c²)) (R160). -/
def magnitude (s c : Int) : Nat :=
  let n := s.natAbs * s.natAbs + c.natAbs * c.natAbs
  let r := isqrt n
  if r * r + r < n then r + 1 else r

/-- A difference of angles wrapped into −2,048 to 2,047 (R162). -/
def phiDiff (new old : Nat) : Int := signed 12 ((new + 4096 - old) % 4096)

/-! ### Validity (R164 to R166, R172) -/

/-- What a tick has latched when the validity falls in the tick's own core cycle: VALID, SPDV and SPD 0, so that no speed is
clamped (R168, R173). Port FSTAT then shows the whole word with the latches of the pair that made it fall (DESIGN CHOICE, log
entry 89). -/
def Dev.tickFall (d : Dev) (u : Nat) : Dev :=
  if d.clk.ticked && d.clk.now == d.clk.frameStart then
    let d := ((d.putB F.FBK_STAT_VALID u false).putB F.FBK_STAT_SPDV u false).setReg (F.FBK_SPD.at_ u) 0
    let d := if (d.fbk u).satWas then d else d.putB F.FBK_STAT_SPDSAT u false
    d.modFbk u fun x => { x with statTick := d.reg (F.FBK_STAT.at_ u) }
  else d

/-- A fall of the live validity: a RAMP has lost its angle (R267); with LOSSACT the axis stops (R165). -/
def Dev.feedbackFall (d : Dev) (u : Nat) : Dev :=
  let d := (d.tickFall u).modFbk u fun x => { x with validTicks := 0 }
  match d.axisOfFbk u with
  | none => d
  | some k =>
    if (d.comm k).ramp.isSome then d.finishRamp k 4
    else if d.flag F.FBK_CFG_LOSSACT u && d.cst k == .run then
      if d.get F.LEG_CFG_POLICY (3 * d.lead k) = 3 then d.finishRamp k 4 else d.requestStop k
    else d

/-- The latches of one detection: OVSPD or SIGLOSS with its count, and EV(8k+2) once when one of them was 0. -/
def Dev.feedbackFault (d : Dev) (u : Nat) (ovspd loss : Bool) : Dev :=
  let fresh := (ovspd && !d.flag F.FBK_STAT_OVSPD u) || (loss && !d.flag F.FBK_STAT_SIGLOSS u)
  let d := if ovspd then (d.putB F.FBK_STAT_OVSPD u true).bump F.FBK_CNT_OVSCNT u else d
  let d := if loss then (d.putB F.FBK_STAT_SIGLOSS u true).bump F.FBK_CNT_LOSSCNT u else d
  match d.axisOfFbk u with
  | none => d
  | some k => d.raiseIf fresh (8 * k + 2)

/-- Signal loss without a sample pair: the reference of the unit's pair has failed (R166). -/
def Dev.referenceLoss (d : Dev) (u : Nat) : Dev :=
  let was := (d.fbk u).valid
  let d := d.modFbk u fun x => { x with valid := false, refLoss := false, lost := true }
  let d := d.feedbackFault u false true
  if was then d.feedbackFall u else d

/-! ### A sample pair (R160 to R164) -/

/-- LINES and the live position. -/
def Dev.putPos (d : Dev) (u lines phi : Nat) : Dev :=
  d.setReg (F.FBK_LPOS.at_ u) (wordN (lines % 2 ^ 28 * 4096 + phi))

/-- LINES of the live position. -/
def Dev.linesOf (d : Dev) (u : Nat) : Nat := fget (d.reg (F.FBK_LPOS.at_ u)) 12 28

/-- The quadrant change of R161 between two sample pairs: LINES, DIR and the frame's edges. -/
def Dev.countEdge (d : Dev) (u phi : Nat) : Dev :=
  let q := (d.fbk u).phi / 1024
  let q' := phi / 1024
  let n := d.linesOf u
  let d := d.putPos u (if q = 3 ∧ q' = 0 then n + 1 else if q = 0 ∧ q' = 3 then n + (2 ^ 28 - 1) else n) phi
  if q' = (q + 1) % 4 then d.modFbk u fun x => { x with dir := true, edgeF := true }
  else if q = (q' + 1) % 4 then d.modFbk u fun x => { x with dir := false, edgeB := true }
  else d

/-- A sample pair with angle `phi` and magnitude `m`, whose window closed at cycle `at_`. -/
def Dev.takePair (d : Dev) (u phi m at_ : Nat) : Dev :=
  let x := d.fbk u
  let first := !x.begun
  let starts := first && !x.lost
  let rearm := (x.begun || x.lost) && x.rearm
  let fast := !first && !rearm && decide (512 < (phiDiff phi x.phi).natAbs)
  let d := if first then d.putPos u 0 phi else if rearm then d.putPos u (d.linesOf u) phi else d.countEdge u phi
  let out := decide (m < d.get F.FBK_AMON_AMIN u ∨ d.get F.FBK_AMON_AMAX u < m)
  let run := if out then x.outRun + 1 else 0
  let loss := out && decide (d.get F.FBK_CFG_LOSSN u ≤ run)
  let d := d.putB F.FBK_STAT_AOUT u out
  let d := d.modFbk u fun y => { y with
    begun := true, rearm := false, phi := phi, lastAt := at_
    outRun := if loss then 0 else run, mMin := min y.mMin m, mMax := max y.mMax m
    valid := (starts || rearm || y.valid) && !fast && !loss
    validTicks := if (starts || rearm) && !x.valid then 0 else y.validTicks }
  let d := d.feedbackFault u fast loss
  if x.valid && !(d.fbk u).valid then d.feedbackFall u else d

/-- SAMPLE_PAIR_COMPLETE: the oldest pair of the pipeline; `tol` counts 1 for the exact floor of R160. -/
def Dev.pairComplete (d : Dev) (u tol : Nat) : Dev :=
  if !d.awake then d else
  match (d.fbk u).pipe with
  | [] => d
  | (s, c, t) :: rest =>
    let s := if d.flag F.FBK_CFG_INV u then -s else s
    let zero := s == 0 && c == 0
    let base := if zero then d.freeNat % 4096 else phiFloor s c
    let d := if zero then d.tick1 else d
    let d := d.modFbk u fun x => { x with pipe := rest }
    let d := d.takePair u ((base + 4095 + tol) % 4096) (magnitude s c) t
    if rest.isEmpty && (d.fbk u).refLoss then d.referenceLoss u else d

/-- A REARM request of the host or of a completed run (R164). -/
def Dev.rearm (d : Dev) (u : Nat) : Dev :=
  if (d.axisOfFbk u).isSome then d.modFbk u fun x => { x with rearm := true } else d

/-! ### The tick (R167 to R170) -/

/-- SPD over the window, before the clamp; `hist` starts with the position just held. -/
def windowSpeed (hist : List (Nat × Bool × Bool)) (w : Nat) (scale : Nat) : Int :=
  let now := (hist.headD (0, false, false)).1
  let old := (hist.getD w (0, false, false)).1
  if (hist.take w).all fun e => !e.2.1 && !e.2.2 then 0
  else floorDiv (signed 40 (now + 2 ^ 40 - old) * (scale : Int)) (w * 65536)

/-- The held values of a unit at the tick that ends frame `tag`. -/
def Dev.fbkTick (d : Dev) (tag u : Nat) : Dev :=
  if (d.axisOfFbk u).isNone then d else
  let x := d.fbk u
  let w := d.get F.FBK_CFG_WIN u + 1
  let pos := d.reg (F.FBK_LPOS.at_ u)
  let hist := ((pos.toNat, x.edgeF, x.edgeB) :: x.hist).take 65
  let ticks := if x.valid then min (x.validTicks + 1) 66 else 0
  let spdv := decide (w + 1 ≤ ticks)
  let raw := if spdv then windowSpeed hist w (d.get F.FBK_SPDSC_SCALE u) else 0
  let rev := ((hist.take w).any fun e => e.2.1) && ((hist.take w).any fun e => e.2.2)
  let d := d.setReg (F.FBK_HPOS.at_ u) pos
  let d := d.put F.FBK_HAGE_AGE u (if x.begun then min (d.clk.now - x.lastAt) 65535 else d.freeNat)
  let d := if x.begun then d else d.tick1
  let d := ((d.put F.FBK_HAMP_MIN u x.mMin).put F.FBK_HAMP_MAX u x.mMax).put F.FBK_HAMP_TAG u tag
  let d := d.setReg (F.FBK_SPD.at_ u) (wordI (satP32 raw))
  let d := d.modFbk u fun x => { x with satWas := d.flag F.FBK_STAT_SPDSAT u }
  let d := if satNeeded raw then d.putB F.FBK_STAT_SPDSAT u true else d
  let d := ((d.putB F.FBK_STAT_VALID u x.valid).putB F.FBK_STAT_SPDV u spdv).putB F.FBK_STAT_DIR u x.dir
  let d := d.putB F.FBK_STAT_REV u rev
  d.modFbk u fun x => { x with
    edgeF := false, edgeB := false, mMin := 65535, mMax := 0, hist := hist, validTicks := ticks
    statTick := d.reg (F.FBK_STAT.at_ u), begunTick := x.begun }

/-! ### The fall of a reference (R137, R166) -/

/-- REF_OK of a pair falls. Before the seal the pair only loses its flag. -/
def Dev.refFall (d : Dev) (p : Nat) : Dev :=
  if d.refEnabled p && d.flag F.ADC_STAT_REFOK (2 * p) then
    if !d.sys.sealed then d.each (pairBanks p) fun b d => d.putB F.ADC_STAT_REFOK b false
    else
      let d := d.refFallBanks p
      match d.axisOfPair p with
      | none => d
      | some k =>
        let u := (d.topo k).fbk
        if d.axisOfFbk u = some k then
          let d := d.modFbk u fun x => { x with half := none }
          if (d.fbk u).pipe.isEmpty then d.referenceLoss u else d.modFbk u fun x => { x with refLoss := true }
        else d
  else d

/-! ### Meanings -/

/-- SAMPLE_PAIR_COMPLETE (R160). -/
def execSamplePairComplete (unit : Fin 8) (tol : Fin 3) (t : Nat) (s : State) : Host.Outcome State Fault Refusal :=
  s.lift fun d => (d.at_ t).pairComplete unit tol
/-- REARM (R164). -/
def execRearm (unit : Fin 8) (s : State) : Host.Outcome State Fault Refusal :=
  s.lift fun d => if d.hostUp then d.rearm unit else d
/-- REF_OK_FALL (R137, R166). -/
def execRefOkFall (pair : Fin 8) (s : State) : Host.Outcome State Fault Refusal := s.lift fun d => d.refFall pair

end Sys2Proof.Machine
end

