-- ==== Sys2Proof/Machine/Geyser.lean ====
section
/-! DEFINITION. The slot table and its commits, and phase following (chapter 3). -/

namespace Sys2Proof.Machine

/-! ### The rules for a table (R63 to R65) -/

/-- What a table is checked against: the shortest frame, the enabled single and primary axes as a mask, and the WCET of
each. -/
structure SlotEnv where
  p : Nat
  axes : Nat
  wcet : List (Nat × Nat)
  deriving DecidableEq, Repr

/-- A breach of R65: reason, slot, and whether it is an absence. -/
structure Breach where
  reason : Nat
  slot : Nat := 0
  miss : Bool := false
  deriving DecidableEq, Repr

/-- Rule 1 for one slot word. That a NONE slot with OFFSET other than 0 breaks rule 1 is DEDUCED, log entry 85. -/
def slotRange (e : SlotEnv) (w : Word) : Bool :=
  let o := slotOffset w
  let m := slotMask w
  decide (w.toNat >>> 28 = 0) &&
  match slotAction w with
  | 0 => decide (o = 0 ∧ m = 0)
  | 1 => decide (1 ≤ o ∧ o < e.p ∧ m &&& e.axes = m)
  | 2 => decide (1 ≤ o ∧ o < e.p ∧ m &&& e.axes = m)
  | 5 => decide (1 ≤ o ∧ o < e.p ∧ m < 16)
  | 3 => decide (1 ≤ o ∧ o < e.p ∧ m = 0)
  | 4 => decide (1 ≤ o ∧ o < e.p ∧ m = 0)
  | 6 => decide (1 ≤ o ∧ o < e.p ∧ m = 0)
  | _ => false

/-- Rule 2: the lowest slot whose OFFSET is below that of the non-NONE slot before it. -/
def slotOrder : List (Nat × Word) → Nat → Option Nat
  | [], _ => none
  | (s, w) :: rest, last =>
    if slotAction w = 0 then slotOrder rest last
    else if slotOffset w < last then some s
    else slotOrder rest (slotOffset w)

/-- Rule 3, surplus: the lowest slot that is a second one of its kind, or names an axis again. -/
def slotSurplus : List (Nat × Word) → Bool → Bool → Nat → Nat → Option Nat
  | [], _, _, _, _ => none
  | (s, w) :: rest, jnl, hb, prog, ckpt =>
    let m := slotMask w
    match slotAction w with
    | 1 => if m &&& prog ≠ 0 then some s else slotSurplus rest jnl hb (prog ||| m) ckpt
    | 2 => if m &&& ckpt ≠ 0 then some s else slotSurplus rest jnl hb prog (ckpt ||| m)
    | 3 => if jnl then some s else slotSurplus rest true hb prog ckpt
    | 4 => if hb then some s else slotSurplus rest jnl true prog ckpt
    | _ => slotSurplus rest jnl hb prog ckpt

/-- The slots of one action. -/
def slotsOf (t : List (Nat × Word)) (act : Nat) : List (Nat × Word) := t.filter fun x => slotAction x.2 == act

/-- The axes that the masks of one action name. -/
def axesNamed (t : List (Nat × Word)) (act : Nat) : Nat := (slotsOf t act).foldl (fun m x => m ||| slotMask x.2) 0

/-- The OFFSET of an axis's PROG slot. -/
def progOffset (t : List (Nat × Word)) (k : Nat) : Nat :=
  match (slotsOf t 1).find? fun x => (slotMask x.2).testBit k with
  | none => 0
  | some x => slotOffset x.2

/-- WCET + 64 of an axis. -/
def SlotEnv.span (e : SlotEnv) (k : Nat) : Nat := uget e.wcet k + 64

/-- The first breach of R65, the lowest reason in its lowest slot. -/
def tableBreach (e : SlotEnv) (words : List Word) : Option Breach :=
  let t := (List.range words.length).zip words
  let prog := slotsOf t 1
  let absent := (slotsOf t 3).isEmpty || (slotsOf t 4).isEmpty || axesNamed t 1 != e.axes || axesNamed t 2 != e.axes
  let jnl := ((slotsOf t 3).headD (0, 0)).2
  match t.find? fun x => !slotRange e x.2 with
  | some x => some { reason := 1, slot := x.1 }
  | none =>
    match slotOrder t 0 with
    | some s => some { reason := 2, slot := s }
    | none =>
      if absent then some { reason := 3, miss := true }
      else match slotSurplus t false false 0 0 with
        | some s => some { reason := 3, slot := s }
        | none =>
          match prog.find? fun x => decide (slotOffset x.2 < slotOffset jnl + 1280) with
          | some x => some { reason := 4, slot := x.1 }
          | none =>
            match prog.find? fun x => (bitsOf 8 (slotMask x.2)).any fun k => decide (e.p ≤ slotOffset x.2 + e.span k) with
            | some x => some { reason := 5, slot := x.1 }
            | none =>
              match (slotsOf t 2).find? fun x =>
                  (bitsOf 8 (slotMask x.2)).any fun k => decide (slotOffset x.2 < progOffset t k + e.span k) with
              | some x => some { reason := 6, slot := x.1 }
              | none => none

/-- What the tables of the sealed image are checked against. -/
def Dev.slotEnv (d : Dev) : SlotEnv :=
  let axes := (List.range 8).filter d.primary
  { p := d.get F.GEY_PERIOD_PERIOD 0 - (if d.flag F.GEY_SYNC_FOLLOW 0 then d.get F.GEY_SYNC_SLEW 0 else 0)
    axes := axes.foldl (fun m k => setBit m k true) 0
    wcet := axes.foldl (fun t k => uset t k (d.progOf k).wcet) [] }

/-! ### Commits (R69 to R71) -/

/-- A commit stands: the shadow table is locked. -/
def Dev.tableLocked (d : Dev) : Bool := d.gey.commit.isSome

/-- GO: the guard is decided on the cycle of the write; a second GO is refused. -/
def Dev.commitGo (d : Dev) : Option Dev :=
  if d.tableLocked then none
  else
    let late := decide (d.len ≤ d.cycle + 400)
    some (d.modGey fun g => { g with commit := some { validated := false, deferred := late, ticksLeft := if late then 2 else 1 } })

/-- CANCEL of a pending or deferred commit; without effect otherwise. -/
def Dev.commitCancel (d : Dev) : Dev :=
  match d.gey.commit with
  | none => d
  | some c =>
    if c.validated then ((d.modGey fun g => { g with commit := none }).put F.GEY_CSTAT_STATE 0 5).raise 125 else d

/-- A write of GEY_COMMIT; GO and CANCEL together are refused. -/
def Dev.writeCommit (d : Dev) (w : Word) : Option Dev :=
  match w.getLsbD 0, w.getLsbD 1 with
  | true, true => none
  | true, false => d.commitGo
  | false, true => some d.commitCancel
  | false, false => some d

/-- A write of a shadow slot (R68, R71). -/
def Dev.writeSlot (d : Dev) (s : Nat) (w : Word) : Option Dev :=
  if d.tableLocked then none else some (d.put { F.GEY_SLOT with width := 28 } s w.toNat)

/-- COMMIT_VALIDATION_DONE: the shadow table is accepted, or refused with its breach. -/
def Dev.commitValidated (d : Dev) : Dev :=
  match d.gey.commit with
  | none => d
  | some c =>
    if c.validated then d
    else
      match tableBreach d.slotEnv (tabulate 32 fun s => d.reg (F.GEY_SLOT.at_ s)) with
      | none =>
        let d := d.modGey fun g => { g with commit := some { c with validated := true } }
        (((d.put F.GEY_CSTAT_STATE 0 (if c.deferred then 2 else 1)).put F.GEY_CSTAT_REASON 0 0).put F.GEY_CSTAT_SLOT 0 0).putB
          F.GEY_CSTAT_MISS 0 false
      | some b =>
        let d := d.modGey fun g => { g with commit := none }
        ((((d.put F.GEY_CSTAT_STATE 0 4).put F.GEY_CSTAT_REASON 0 b.reason).put F.GEY_CSTAT_SLOT 0 b.slot).putB
          F.GEY_CSTAT_MISS 0 b.miss).raise 125

/-- The swap at a tick (R70): a commit counts down; the shadow table then starts from the new active table. -/
def Dev.swapTick (d : Dev) : Dev :=
  match d.gey.commit with
  | none => d
  | some c =>
    if c.ticksLeft = 1 ∧ c.validated then
      let d := d.each (List.range 32) fun s d => d.setReg (F.GEY_ASLOT.at_ s) (d.reg (F.GEY_SLOT.at_ s))
      let d := (d.put F.GEY_CSTAT_STATE 0 3).put F.GEY_CSTAT_SWAPF 0 (d.get F.GEY_FCNT 0)
      (d.modGey fun g => { g with commit := none }).raise 125
    else d.modGey fun g => { g with commit := some { c with ticksLeft := max 1 (c.ticksLeft - 1) } }

/-! ### Phase following (R72 to R74) -/

/-- SYNCIN_EDGE: the master's tick is the edge time less COMP. -/
def Dev.syncinEdge (d : Dev) (t : Nat) : Dev :=
  let d := d.at_ t
  if d.awake && d.sys.sealed && d.flag F.GEY_SYNC_FOLLOW 0 then d.modGey fun g => { g with master := some d.clk.now } else d

/-- Lock is gained or lost. -/
def Dev.setLocked (d : Dev) (on : Bool) : Dev :=
  if d.flag F.GEY_SSTAT_LOCKED 0 == on then d
  else
    let d := (d.putB F.GEY_SSTAT_LOCKED 0 on).raise 126
    if on then d else d.putB F.GEY_SSTAT_LOST 0 true

/-- SYNCIN_TIMEOUT: no edge has come within 1.25 periods of the last one. -/
def Dev.syncinTimeout (d : Dev) : Dev :=
  match d.gey.master with
  | none => d
  | some edge =>
    if d.awake && d.sys.sealed && d.flag F.GEY_SYNC_FOLLOW 0 then
      let d := d.toCycle (edge + (5 * d.get F.GEY_PERIOD_PERIOD 0 + 3) / 4)
      (d.setLocked false).modGey fun g => { g with master := none, inCnt := 0, outCnt := 0 }
    else d

/-- The phase error: own tick time less the target, wrapped into −P/2 to P/2 − 1. For an odd period R73 gives no rounding of
P/2: the model wraps into −⌊P/2⌋ to P − 1 − ⌊P/2⌋ (DESIGN CHOICE, log entry 80). -/
def phaseError (period : Nat) (now edge comp phase : Nat) : Int :=
  let x := (now : Int) - ((edge : Int) - comp + phase)
  (x + period / 2) % period - period / 2

/-- The length of the frame that a tick opens, with the error and the lock counts. At a tick without a new edge, before the
timeout of R74, the error is computed from the last edge, counted and corrected; after it ERR keeps its value (DESIGN CHOICE, log
entry 80). -/
def Dev.phaseTick (d : Dev) : Dev :=
  let period := d.get F.GEY_PERIOD_PERIOD 0
  match d.gey.master with
  | none => d.put F.GEY_SSTAT_LEN 0 period
  | some edge =>
    if !d.flag F.GEY_SYNC_FOLLOW 0 then d.put F.GEY_SSTAT_LEN 0 period
    else
      let err := phaseError period d.clk.now edge (d.get F.GEY_SYNC_COMP 0) (d.get F.GEY_SYNC_PHASE 0)
      let slew := (d.get F.GEY_SYNC_SLEW 0 : Int)
      let d := (d.putI F.GEY_SSTAT_ERR 0 err).put F.GEY_SSTAT_LEN 0 ((period : Int) - clampI (-slew) slew err).toNat
      let within := decide (err.natAbs ≤ d.get F.GEY_SYNC_LOCKWIN 0)
      let inn := if within then min 16 (d.gey.inCnt + 1) else 0
      let out := if within then 0 else min 16 (d.gey.outCnt + 1)
      let d := d.modGey fun g => { g with inCnt := inn, outCnt := out }
      if inn = 16 then d.setLocked true else if out = 16 then d.setLocked false else d

/-- The level of SYNCOUT: high from 5 ns after a tick on, for 100 ns. -/
def Dev.syncoutHigh (d : Dev) : Bool := match d.gey.syncAt with
  | none => false
  | some t => decide (t + 2 ≤ d.clk.now ∧ d.clk.now < t + 42)

/-- SYNCOUT_END: 100 ns after its rise. -/
def Dev.syncoutEnd (d : Dev) : Dev := match d.gey.syncAt with
  | none => d
  | some t => (d.toCycle (t + 42)).modGey fun g => { g with syncAt := none }

/-! ### Meanings -/

/-- GEY_COMMIT_GO in core cycle `t` of the frame (R69). -/
def execGeyCommitGo (t : Nat) (s : State) : Host.Outcome State Fault Refusal :=
  s.lift fun d => if d.hostUp && d.sys.sealed then let d := d.at_ t; d.hostWrite 0x0104 d.commitGo else d
/-- COMMIT_VALIDATION_DONE (R69). -/
def execCommitValidationDone (s : State) : Host.Outcome State Fault Refusal := s.lift Dev.commitValidated
/-- GEY_COMMIT_CANCEL (R71). -/
def execGeyCommitCancel (s : State) : Host.Outcome State Fault Refusal := s.lift Dev.commitCancel
/-- SYNCIN_EDGE in core cycle `t` of the frame (R73). -/
def execSyncinEdge (t : Nat) (s : State) : Host.Outcome State Fault Refusal := s.lift fun d => d.syncinEdge t
/-- SYNCIN_TIMEOUT (R74). -/
def execSyncinTimeout (s : State) : Host.Outcome State Fault Refusal := s.lift Dev.syncinTimeout
/-- SYNCOUT_END (R72). -/
def execSyncoutEnd (s : State) : Host.Outcome State Fault Refusal := s.lift Dev.syncoutEnd

end Sys2Proof.Machine
end

