-- ==== Sys2Proof/Machine/ImageParse.lean ====
section
/-! DEFINITION. The Vuson image as bytes (chapter 2): header, records, the structural checks of R54, the signature, and
the contents of each record. -/

namespace Sys2Proof.Machine

/-! ### Errors (R54, R468) -/

/-- A refusal of an image: its code and the record that it names; the header by default. -/
structure ImgErr where
  code : Nat
  typ : Nat := 0
  inst : Nat := 0
  off : Nat := 0
  deriving DecidableEq, Repr

namespace Img
def noImage : Nat := 0x01
def magic : Nat := 0x02
def version : Nat := 0x03
def hdrCrc : Nat := 0x04
def length : Nat := 0x05
def target : Nat := 0x06
def recCrc : Nat := 0x07
def recOrder : Nat := 0x08
def recMissing : Nat := 0x09
def recFormat : Nat := 0x0A
def key : Nat := 0x0B
def signature : Nat := 0x0C
def rollback : Nat := 0x0D
def fieldRange : Nat := 0x0E
def binding : Nat := 0x0F
def fitProg : Nat := 0x10
def fitTime : Nat := 0x11
def address : Nat := 0x12
def limit : Nat := 0x13
def vent : Nat := 0x14
def diagOnly : Nat := 0x15
end Img

/-- A record: TYPE, INSTANCE, offset of its first byte, its payload, its bytes up to the CRC, and the CRC. -/
structure Rec where
  typ : Nat
  inst : Nat
  off : Nat
  body : List Byte
  raw : List Byte
  crc : Nat
  deriving DecidableEq, Repr

/-- A refusal that names a record. -/
def Rec.err (r : Rec) (code : Nat) : ImgErr := { code := code, typ := r.typ, inst := r.inst, off := r.off }

/-- The first error of a list. -/
def firstErr (l : List (Option ImgErr)) : Option ImgErr := l.findSome? id

/-- An error when a condition holds. -/
def errIf (c : Bool) (e : ImgErr) : Option ImgErr := if c then some e else none

/-! ### Bytes -/

/-- `n` bytes from offset `o`. -/
def slice (bs : List Byte) (o n : Nat) : List Byte := (bs.drop o).take n

/-- A little-endian field of `n` bytes at offset `o` (R33). -/
def le (bs : List Byte) (o n : Nat) : Nat := leNat (slice bs o n)

/-- The first `n` pieces of `size` bytes. -/
def pieces (size : Nat) : Nat → List Byte → List (List Byte)
  | 0, _ => []
  | n + 1, bs => bs.take size :: pieces size n (bs.drop size)

/-! ### The header (R36) -/

/-- The checks that the flash port makes on the header before it reads a copy: MAGIC, version, CRC, length (R30). -/
def headerErr (bs : List Byte) (push : Option Nat) : Option ImgErr :=
  let m := le bs 0 4
  let len := le bs 8 4
  firstErr [
    errIf (m == 0xFFFFFFFF || m == 0) { code := Img.noImage },
    errIf (m != 0x4E4F5356) { code := Img.magic },
    errIf (le bs 4 1 != 1 || le bs 5 1 != 0 || le bs 6 2 != 0x20) { code := Img.version },
    errIf (crc32 (slice bs 0 0x1C) != le bs 0x1C 4) { code := Img.hdrCrc },
    errIf (decide (len < 32 ∨ 1048576 < len) || (push.isSome && push != some len)) { code := Img.length }]

/-- Reserved bytes and bits of the header are 0. -/
def headerReserved (bs : List Byte) : Bool :=
  le bs 0x0F 1 == 0 && decide (le bs 0x12 1 < 4) && decide (le bs 0x13 1 < 4) && le bs 0x16 2 == 0

/-! ### Records (R37, R38) -/

/-- The records from offset `off` on, and the LENGTH failure that ends the walk. -/
def walkRecs : Nat → Nat → List Byte → List Rec × Option ImgErr
  | 0, _, _ => ([], none)
  | n + 1, off, bs =>
    if bs.isEmpty then ([], none)
    else if bs.length < 12 then ([], some { code := Img.length })
    else
      let plen := le bs 4 4
      let raw := 8 + (plen + 3) / 4 * 4
      let r : Rec := { typ := le bs 0 1, inst := le bs 1 1, off := off, body := slice bs 8 plen, raw := bs.take raw,
                       crc := le bs raw 4 }
      if bs.length < raw + 4 then ([], some (r.err Img.length))
      else
        let x := walkRecs n (off + raw + 4) (bs.drop (raw + 4))
        (r :: x.1, x.2)

/-- The number of instances of a type; 0 for a type that R38 does not list. -/
def instances (typ : Nat) : Nat :=
  match typ with
  | 0x01 => 1 | 0x02 => 28 | 0x03 => 9 | 0x04 => 8 | 0x05 => 1 | 0x06 => 8 | 0x07 => 4 | 0x08 => 1 | 0x09 => 1 | 0x0A => 1
  | 0xFF => 1
  | _ => 0

/-- A register list: whole entries with a reserved byte of 0 (R39). -/
def listOk (bs : List Byte) : Bool :=
  bs.length % 8 == 0 && (pieces 8 (bs.length / 8) bs).all fun e => byteAt e 7 == 0

/-- The layout of a payload and its reserved bytes and bits. -/
def bodyOk (typ : Nat) (b : List Byte) : Bool :=
  match typ with
  | 0x01 => b.length == 64 && (pieces 8 8 b).all fun e => decide (byteAt e 0 < 16) && byteAt e 7 == 0
  | 0x02 => b.length == 16 && decide (byteAt b 10 < 4 ∧ byteAt b 11 < 16) && byteAt b 14 == 0 && byteAt b 15 == 0
  | 0x06 => decide (12 ≤ b.length) && b.length == 12 + 5 * (le b 4 2 + le b 6 2) && le b 9 3 == 0
  | 0x08 => decide (8 ≤ b.length) && b.length == 8 + 4 * byteAt b 3
  | 0x09 =>
    let na := le b 0 2
    let nb := le b 2 2
    decide (4 ≤ b.length) && b.length == 4 + 8 * na + 16 * nb && listOk (slice b 4 (8 * na)) &&
      (pieces 16 nb (b.drop (4 + 8 * na))).all fun e => decide (byteAt e 4 < 2) && byteAt e 15 == 0
  | 0xFF => b.length == 128
  | _ => listOk b

/-- REC_FORMAT holds of a record. -/
def Rec.formatOk (r : Rec) : Bool :=
  le r.raw 2 2 == 0 && decide (r.inst < instances r.typ) && bodyOk r.typ r.body &&
    (r.raw.drop (8 + r.body.length)).all fun x => x == 0

/-- The place of a record in the order of R38. -/
def Rec.place (r : Rec) : Nat := 256 * r.typ + r.inst

/-- Each record checked fully before the next: format, CRC, order. -/
def recsErr : Option Nat → List Rec → Option ImgErr
  | _, [] => none
  | prev, r :: rest =>
    let late := match prev with
      | none => false
      | some p => decide (r.place ≤ p)
    match firstErr [errIf (!r.formatOk) (r.err Img.recFormat), errIf (crc32 r.raw != r.crc) (r.err Img.recCrc),
        errIf late (r.err Img.recOrder)] with
    | some e => some e
    | none => recsErr (some r.place) rest

/-! ### TOPOLOGY (R41) -/

/-- One TOPOLOGY entry. -/
def topoEntry (e : List Byte) : Topo :=
  let f := byteAt e 0
  { en := f.testBit 0, kind := f / 2 % 8, engine := byteAt e 1, prog := byteAt e 2, pair := byteAt e 3, fbk := byteAt e 4,
    brake := byteAt e 5, drive := byteAt e 6 }

/-- The TOPOLOGY table. -/
def topoTable (b : List Byte) : List (Nat × Topo) :=
  ((List.range 8).zip (pieces 8 8 b)).foldl (fun t p => uset t p.1 (topoEntry p.2)) []

/-- The records that an image must hold, in the order of R38. -/
def mandatory (t : List (Nat × Topo)) : List Nat :=
  let on := ((List.range 8).map fun k => (k, uget t k)).filter fun p => p.2.en
  let named := fun (f : Topo → Nat) (n : Nat) => (List.range n).filter fun i => on.any fun p => f p.2 == i
  [0x100] ++ (on.flatMap fun p => (legsOf p.1).map fun l => 0x200 + l) ++ ((named Topo.brake 4).map fun i => 0x200 + 24 + i) ++
    ((named Topo.pair 8).map fun i => 0x300 + i) ++ ((named Topo.fbk 8).map fun i => 0x400 + i) ++ [0x500] ++
    ((named Topo.prog 8).map fun i => 0x600 + i) ++ [0x800, 0x900, 0xFF00]

/-- The record at a place. -/
def recAt (rs : List Rec) (p : Nat) : Option Rec := rs.find? fun r => r.place == p

/-- REC_MISSING: the first missing record, and the offset of the record that follows it. -/
def missingErr (rs : List Rec) (len : Nat) : Option ImgErr :=
  let t := match recAt rs 0x100 with
    | none => []
    | some r => topoTable r.body
  ((mandatory t).find? fun p => (recAt rs p).isNone).map fun p =>
    { code := Img.recMissing, typ := p / 256, inst := p % 256,
      off := match rs.find? fun r => decide (p < r.place) with
        | none => len
        | some r => r.off }

/-! ### Signature and rollback (R52 to R55) -/

/-- The signed digest of an image whose SIG record begins at `off`. -/
def signedDigest (bs : List Byte) (off : Nat) : Nat := sha256 (bs.take (off + 8 + 64))

/-- The checks from DIAG_ONLY to ROLLBACK. -/
def Dev.authErr (d : Dev) (otp : List (Nat × Option Word)) (bs : List Byte) (sig : Rec) : Option ImgErr :=
  let diag := (le bs 0x13 1).testBit 0
  let slot := le bs 0x12 1 % 4
  let keyDigest := sha256 (sig.body.take 64)
  let keyOk := if diag then
      ((List.range 8).all fun i => d.wordState otp (0xF0 + i) == .good) && keyDigest == otpDigest otp 0xF0
    else d.slotState otp slot == 1 && keyDigest == otpDigest otp (0x100 + 0x20 * slot)
  let roll := le bs 0x10 2
  let n := fun i => beNat (slice sig.body (32 * i) 32)
  firstErr [
    errIf (!diag && (List.range 4).all fun s => decide (2 ≤ d.slotState otp s)) { code := Img.diagOnly },
    errIf (!keyOk) (sig.err Img.key),
    errIf (!ecdsaOk (n 0) (n 1) (signedDigest bs sig.off) (n 2) (n 3)) (sig.err Img.signature),
    errIf (decide (1280 < roll ∨ roll < d.rollbackValue otp imageCounter)) { code := Img.rollback }]

/-! ### Register lists (R39, R40) -/

/-- The entries of a register list. -/
def entriesOf (bs : List Byte) : List (Nat × Word) :=
  (pieces 8 (bs.length / 8) bs).map fun e => (le e 0 2, wordN (le e 2 5))

/-- The register-list entries of a record; part A of LIMITS. -/
def Rec.entries (r : Rec) : List (Nat × Word) :=
  if r.typ = 0x09 then entriesOf (slice r.body 4 (8 * le r.body 0 2))
  else if r.typ = 0x03 ∨ r.typ = 0x04 ∨ r.typ = 0x05 ∨ r.typ = 0x07 ∨ r.typ = 0x0A then entriesOf r.body
  else []

/-- The bits of a register in fields whose access code satisfies `p`. -/
def bitsOfAcc (a : Nat) (p : Acc → Bool) : Word := (fieldsAt a).foldl (fun w f => if p f.acc then w ||| fmask f.lo f.width else w) 0

/-- The bits that a record's writer may write: the host's before the seal, or the warden's in part A of LIMITS. -/
def Rec.mayWrite (r : Rec) (a : Nat) : Word :=
  if r.typ = 0x09 then bitsOfAcc a fun x => x == .wdn || x == .wdnWo
  else bitsOfAcc a fun x => x == .rw || x == .wo || x == .w1c || x == .rws || x == .seal || x == .live

/-- The bits of a register that hold a value. -/
def heldBits (a : Nat) : Word := bitsOfAcc a fun x => x == .rw || x == .rws || x == .seal || x == .live || x == .wdn

/-- An address within the ranges of a record's type. -/
def Rec.permits (r : Rec) (a : Nat) : Bool :=
  let within := fun (lo n : Nat) => decide (lo ≤ a ∧ a < lo + n)
  match r.typ with
  | 0x03 => if r.inst = 8 then within 0x1800 0x100 else within (0x0C00 + 0x80 * r.inst) 0x80
  | 0x04 => within (0x1900 + 0x20 * r.inst) 0x20
  | 0x05 => within 0x0100 0x100
  | 0x07 => within (0x1C00 + 0x80 * r.inst) 0x80
  | 0x0A => within 0x0200 0x200 || within 0x0400 0x400 || within 0x1000 0x800 || within 0x1B00 0x100
  | _ => r.mayWrite a != 0

/-- An entry outside its record's addresses, or with a bit that its writer may not write. -/
def Rec.addressBad (r : Rec) : Bool := r.entries.any fun e => !r.permits e.1 || (e.2 &&& ~~~(r.mayWrite e.1)) != 0

/-- The bits of a register that a record has written. -/
def Image.mask (m : Image) (a : Nat) : Word := match m.masks.find? fun p => p.1 == a with
  | some p => p.2
  | none => 0

/-- A register as the image leaves it: the bits that records write, and the present value of the others. A field that no
record writes therefore counts with what the host has written into it before the load (DESIGN CHOICE, log entry 62). -/
def Image.reg (m : Image) (d : Dev) (a : Nat) : Word :=
  (tget d.reg m.regs a &&& m.mask a) ||| (d.reg a &&& ~~~(m.mask a))

/-- A field as the image leaves it. -/
def Image.get (m : Image) (d : Dev) (f : Fld) (i : Nat := 0) : Nat := fget (m.reg d (f.at_ i)) f.lo f.width

/-- A list of values by rising key with one of them replaced or put in. -/
def listSet {α : Type} : List (Nat × α) → Nat → α → List (Nat × α)
  | [], i, v => [(i, v)]
  | (k, w) :: t, i, v => if i < k then (i, v) :: (k, w) :: t else if i = k then (i, v) :: t else (k, w) :: listSet t i v

/-- The bits `bits` of a register written by the image; `w` is the register with them. -/
def Image.setBits (m : Image) (a : Nat) (bits w : Word) : Image :=
  { m with regs := listSet m.regs a w, masks := listSet m.masks a (m.mask a ||| bits) }

/-- A register written whole by the image. -/
def Image.setReg (m : Image) (a : Nat) (w : Word) : Image := m.setBits a (-1) w

/-- A field written by the image. -/
def Image.put (m : Image) (d : Dev) (f : Fld) (i v : Nat) : Image :=
  m.setBits (f.at_ i) (fmask f.lo f.width) (fput (m.reg d (f.at_ i)) f.lo f.width v)

/-- One entry written: the stored fields of its register that its writer may write take the entry's values, a P32 value
clamped (R3, R40). The record is noted as the last to write those fields of the register that its rights cover (R466). -/
def Image.entry (m : Image) (d : Dev) (r : Rec) (e : Nat × Word) : Image :=
  let held := r.mayWrite e.1 &&& heldBits e.1
  let w := e.2 &&& held
  let m := if r.mayWrite e.1 = 0 then m
    else { m with wrote := listSet m.wrote (2 * e.1 + b2n (r.typ == 0x09)) (r.typ, r.inst, r.off) }
  match filterWord e.1 with
  | some (c, part) =>
    let i := m.get d F.CAN_FSEL_INDEX c
    let fs := uget m.filters c
    let old := uget fs i
    { m with filters := uset m.filters c (uset fs i (if part = 0 then (w, old.2) else (old.1, w)))
             filterEntries := m.filterEntries ++ [(c, i, part, w)] }
  | none => if r.permits e.1 then m.setBits e.1 held (regTake e.1 ((m.reg d e.1 &&& ~~~held) ||| w)) else m

/-! ### The contents of the other records (R43, R45, R48, R49) -/

/-- A LEG record: the words of LEG_CFG and LEG_GDRV, or of BRK_CFG and BRK_GDRV. -/
def Image.leg (m : Image) (r : Rec) : Image :=
  let b := fun i => byteAt r.body i
  if r.inst < 24 then
    let cfg := b 0 + b 6 * 2 ^ 4 + b 7 * 2 ^ 12 + le r.body 8 2 * 2 ^ 17 + b 10 % 4 * 2 ^ 29 + b 11 % 16 * 2 ^ 31
    let gdrv := b 1 + b 2 * 2 ^ 4 + b 3 * 2 ^ 8 + b 4 * 2 ^ 12 + b 5 * 2 ^ 17
    (m.setReg (F.LEG_CFG.at_ r.inst) (wordN cfg)).setReg (F.LEG_GDRV.at_ r.inst) (wordN gdrv)
  else
    let n := r.inst - 24
    let axes := (List.range 8).foldl
      (fun x k => if (uget m.topo k).en ∧ (uget m.topo k).brake = n then setBit x k true else x) 0
    (m.setReg (F.BRK_CFG.at_ n) (wordN (b 0 + b 12 * 2 ^ 4 + b 13 * 2 ^ 12 + axes * 2 ^ 18))).setReg (F.BRK_GDRV.at_ n)
      (wordN (b 2 + b 3 * 2 ^ 4 + b 4 * 2 ^ 8 + b 5 * 2 ^ 13))

/-- A PROG record. -/
def progOfRec (r : Rec) : Prog :=
  let words := fun (o n : Nat) => (pieces 5 n (r.body.drop o)).map fun w => wordN (leNat w)
  let cn := le r.body 4 2
  { wcet := le r.body 0 4, codeN := cn, dataN := le r.body 6 2, ckpt := byteAt r.body 8, code := words 12 cn,
    data := words (12 + 5 * cn) (le r.body 6 2) }

/-- The class entries of a JNL record. -/
def classesOf (r : Rec) : List ClassR :=
  (pieces 4 (byteAt r.body 3) (r.body.drop 8)).map fun e =>
    { first := byteAt e 0, last := byteAt e 1, auth := byteAt e 2 == 1, key := byteAt e 3 }

/-- The range entries of a LIMITS record. -/
def rangesOf (r : Rec) : List Range :=
  (pieces 16 (le r.body 2 2) (r.body.drop (4 + 8 * le r.body 0 2))).map fun e =>
    { addr := le e 0 2, lsb := byteAt e 2, width := byteAt e 3, sgn := byteAt e 4 == 1, min := wordN (le e 5 5),
      max := wordN (le e 10 5) }

/-- The TOPOLOGY record: AX_CFG of every axis. -/
def Image.topology (m : Image) (d : Dev) (r : Rec) : Image :=
  let t := topoTable r.body
  (List.range 8).foldl (fun m k =>
    let x := uget t k
    let drive := if x.en ∧ x.drive < 3 then x.drive else 3
    ((m.put d F.AX_CFG_EN k (b2n x.en)).put d F.AX_CFG_KIND k x.kind).put d F.AX_CFG_DRIVE k drive) { m with topo := t }

/-- A record applied to the image. -/
def Image.apply (m : Image) (d : Dev) (r : Rec) : Image :=
  match r.typ with
  | 0x01 => m.topology d r
  | 0x02 => m.leg r
  | 0x03 => r.entries.foldl (fun m e => m.entry d r e) { m with pairs := if r.inst < 8 then setBit m.pairs r.inst true else m.pairs }
  | 0x06 => { m with progs := uset m.progs r.inst (progOfRec r) }
  | 0x08 =>
    let m := ((m.put d F.JNL_CFG_SIZEC 0 (le r.body 0 2 / 64 - 1)).put d F.JNL_CFG_NODE 0 (byteAt r.body 2)).put d
      F.JNL_CFG_TIMEOUT 0 (le r.body 4 4)
    { m with classes := classesOf r }
  | 0x09 => r.entries.foldl (fun m e => m.entry d r e) { m with ranges := rangesOf r, limOff := r.off }
  | 0x07 => r.entries.foldl (fun m e => m.entry d r e) (m.put d F.CAN_CTL_EN r.inst 1)
  | _ => r.entries.foldl (fun m e => m.entry d r e) m

end Sys2Proof.Machine
end

