-- ==== Sys2Proof/Machine/ImageRules.lean ====
section
/-! DEFINITION. The semantic checks of an image (R466, R469, and the rules of every chapter that refuse one): the first
pass record by record, the second pass over final values, the fit in time, the LIVE ranges. -/

namespace Sys2Proof.Machine

/-! ### The owner of a pair, the primaries (R41) -/

/-- The enabled axis that a bank pair is bound to. -/
def Image.axisOfPair (m : Image) (p : Nat) : Option Nat :=
  (List.range 8).find? fun k => (uget m.topo k).en && (uget m.topo k).pair == p

/-- An enabled single or primary axis. -/
def Topo.isPrimary (t : Topo) : Bool := t.en && (t.kind == 0 || t.kind == 1 || t.kind == 3)

/-- The enabled single and primary axes. -/
def Image.primaries (m : Image) : List Nat := (List.range 8).filter fun k => (uget m.topo k).isPrimary

/-- A value within a closed interval. -/
def within (lo hi v : Nat) : Bool := decide (lo ≤ v ∧ v ≤ hi)

/-! ### TOPOLOGY (R41, R42) -/

/-- A byte within its encoding. -/
def topoByteOk (n v : Nat) : Bool := decide (v < n) || v == 0xFF

/-- FIELD_RANGE of an entry. ENGINE 8 and 9 are encodings; R42 refuses them. -/
def Topo.rangeOk (t : Topo) : Bool :=
  decide (t.kind < 5) && topoByteOk 10 t.engine && topoByteOk 8 t.prog && topoByteOk 8 t.pair && topoByteOk 8 t.fbk &&
    topoByteOk 4 t.brake && topoByteOk 3 t.drive

/-- The axes for which another enabled axis has the same value in a field. -/
def shared (t : List (Nat × Topo)) (sel : Topo → Bool) (f : Topo → Nat) : Bool :=
  (List.range 8).any fun k => (List.range 8).any fun j =>
    decide (j < k) && sel (uget t k) && sel (uget t j) && f (uget t k) == f (uget t j)

/-- BINDING of one axis. -/
def axisBound (t : List (Nat × Topo)) (k : Nat) : Bool :=
  let x := uget t k
  let next := uget t (k + 1)
  let prev := uget t (k - 1)
  if !x.en then
    x.kind == 0 && x.engine == 0xFF && x.prog == 0xFF && x.pair == 0xFF && x.fbk == 0xFF && x.brake == 0xFF && x.drive == 0xFF
  else
    decide (x.pair < 8) &&
    (if x.isPrimary then
      decide (x.engine < 8 ∧ x.prog < 8 ∧ x.drive < 3) && (if x.drive = 2 then decide (x.fbk < 8) else x.fbk == 0xFF) &&
        (x.kind == 0 || (k % 2 == 0 && next.en && next.kind == x.kind + 1)) && !(x.kind == 1 && x.drive == 0)
    else
      k % 2 == 1 && prev.en && prev.kind + 1 == x.kind && x.engine == 0xFF && x.prog == 0xFF && x.fbk == 0xFF && x.drive == 0xFF)

/-- BINDING of the table. -/
def topologyBound (t : List (Nat × Topo)) : Bool :=
  (List.range 8).all (axisBound t) && !shared t Topo.isPrimary Topo.engine && !shared t Topo.en Topo.pair &&
    !shared t (fun x => x.isPrimary && x.drive == 2) Topo.fbk

/-! ### LEG (R43, R44, R93) -/

/-- FIELD_RANGE of a LEG payload. -/
def legRange (r : Rec) : Bool :=
  let b := fun i => byteAt r.body i
  let common := decide (b 0 < 16 ∧ b 2 < 16 ∧ b 3 < 16 ∧ b 3 ≤ b 2 ∧ b 4 ≤ 28 ∧ b 5 < 32)
  if r.inst < 24 then
    common && decide (b 1 < 16 ∧ 1 ≤ b 6 ∧ b 7 < 32 ∧ le r.body 8 2 ≤ 4000 ∧ b 11 / 4 % 4 < 3 ∧ b 12 = 0 ∧ b 13 = 0)
  else
    common && b 1 == 0 && (slice r.body 6 6).all (fun x => x == 0) && within 24 230 (b 12) && within 1 40 (b 13) && decide (b 13 < b 12)

/-- BINDING of a LEG payload against the legs before it: CARRIER and STOP are the axis's, and a parallel secondary's leg
carries its primary leg's bytes 0 to 11. -/
def legBound (m : Image) (before : List Rec) (r : Rec) : Bool :=
  let k := r.inst / 3
  let same := fun (o n j : Nat) => match recAt before (0x200 + j) with
    | none => true
    | some x => slice x.body o n == slice r.body o n
  decide (24 ≤ r.inst) ||
    ((legsOf k).all fun j => decide (r.inst ≤ j) || same 10 2 j) &&
      (!((uget m.topo k).en && (uget m.topo k).kind == 4) || same 0 12 (r.inst - 3))

/-! ### Fields with a range of their own (R40, R61, R141, R163, R332, R339, R426, R429) -/

/-- GEY_SYNC. -/
def syncOk (w : Word) (period : Nat) : Bool :=
  let slew := fget w 1 6
  decide (fget w 16 16 < period) &&
    (if w.getLsbD 0 then decide (1 ≤ slew ∧ 1 ≤ fget w 32 8) else slew == 0)

/-- CAN_NBT (R339). -/
def nbtOk (w : Word) : Bool :=
  let brp := fget w 0 9 + 1
  let s1 := fget w 9 8 + 1
  let s2 := fget w 17 7 + 1
  let sjw := fget w 24 7 + 1
  decide (2 ≤ s1 ∧ 2 ≤ s2 ∧ sjw ≤ s1 ∧ sjw ≤ s2 ∧ 80 ≤ brp * (1 + s1 + s2))

/-- CAN_DBT (R339, R341). -/
def dbtOk (w : Word) : Bool :=
  let brp := fget w 0 5 + 1
  let s1 := fget w 5 5 + 1
  let s2 := fget w 10 4 + 1
  let sjw := fget w 14 4 + 1
  decide (sjw ≤ s1 ∧ sjw ≤ s2 ∧ 10 ≤ brp * (1 + s1 + s2)) && (!w.getLsbD 25 || decide (brp ≤ 2))

/-- CAN_DMA of an enabled ring (R355): aligned, 2 to 256 slots, within one bank. -/
def dmaOk (w : Word) : Bool :=
  let base := fget w 0 19
  let slots := fget w 19 8 + 1
  !w.getLsbD 27 || (base % 16 == 0 && decide (2 ≤ slots) && bankOf base == bankOf (base + 16 * slots - 1))

/-- THM_LIM (R426). -/
def thmOk (w : Word) : Bool :=
  let warn := fget w 0 8
  let thr := fget w 8 8
  let sd := fget w 16 8
  within 60 175 warn && within 100 160 thr && within 150 175 sd && within 2 16 (fget w 24 5) && within 2 16 (fget w 29 5) &&
    within 2 16 (fget w 34 5) && decide (warn ≤ thr ∧ thr < sd)

/-- The fields of a register lie within the ranges of their own chapter, for registers whose rule needs no other. -/
def Image.fieldOk (m : Image) (d : Dev) (a : Nat) : Bool :=
  let w := m.reg d a
  if a = 0x0100 then within 4000 50000 (fget w 0 16)
  else if a = 0x0101 then syncOk w (m.get d F.GEY_PERIOD_PERIOD)
  else if 0x0400 ≤ a ∧ a < 0x0800 then
    match a % 128 with
    | 0x20 => decide (1 ≤ fget w 0 24 ∧ 1 ≤ fget w 28 8)
    | 0x21 => decide (1 ≤ fget w 0 24)
    | 0x23 => within 2 50 (fget w 0 6) && decide (1 ≤ fget w 30 8)
    | 0x24 => decide (1 ≤ fget w 0 4 ∧ 1 ≤ fget w 4 10 ∧ 1 ≤ fget w 14 8 ∧ 1 ≤ fget w 22 8)
    | 0x18 => within 2 30 (fget w 22 5)
    | 0x19 => within 1 32767 (fget w 0 16)
    | _ => true
  else if 0x1800 ≤ a ∧ a < 0x1860 then within 0x3000 0x5000 (fget w 12 16)
  else if 0x1860 ≤ a ∧ a < 0x18C0 then decide (fget w 0 2 < 3 ∧ fget w 2 2 < 3)
  else if 0x1900 ≤ a ∧ a < 0x1A00 then
    match a % 32 with
    | 0 => decide (1 ≤ fget w 8 8)
    | 1 => decide (fget w 0 16 ≤ 46340 ∧ fget w 16 16 ≤ 46341 ∧ fget w 0 16 < fget w 16 16)
    | _ => true
  else if a = 0x1B01 then within 256 4095 (fget w 0 12)
  else if 0x1B10 ≤ a ∧ a < 0x1B21 ∧ !readOnlyHere a 0 then decide (w.toNat < 2 ^ 14)
  else if 0x1C00 ≤ a ∧ a < 0x1E00 then
    match a % 128 with
    | 0x01 => nbtOk w
    | 0x02 => dbtOk w
    | 0x0D => dmaOk w
    | _ => true
  else if a = 0x1F01 then thmOk w
  else if a = 0x1F02 then decide (1 ≤ fget w 0 16)
  else true

/-! ### ADC (R124 to R132, R239) -/

/-- A used entry of a bank (R125): the channels of a bound pair are its axis's ten and the sixteen shared ones. -/
def entryOk (w : Word) (axis : Option Nat) : Bool :=
  let ch := fget w 0 7
  decide (ch < 96 ∧ fget w 7 3 ≤ 4 ∧ 8 ≤ fget w 10 10) &&
    (match axis with
     | none => true
     | some k => decide (10 * k ≤ ch ∧ ch < 10 * k + 10) || decide (80 ≤ ch))

/-- The used entries of bank `b`. -/
def Image.used (m : Image) (d : Dev) (b : Nat) : List Word :=
  (List.range (m.get d F.ADC_CTL_LEN b)).map fun j => m.reg d (F.ADC_SEQ.at_ b + j)

/-- FBT and CMT of an entry word. -/
def hasFbt (w : Word) : Bool := w.getLsbD 24
def hasCmt (w : Word) : Bool := w.getLsbD 25

/-- FBT of a pair (R132). -/
def Image.fbtOk (m : Image) (d : Dev) (p : Nat) : Bool :=
  let a := m.used d (2 * p)
  let b := m.used d (2 * p + 1)
  let tapped := fun (l : List Word) => (List.range l.length).filter fun j => hasFbt (l.getD j 0)
  match m.axisOfPair p with
  | some k =>
    if (uget m.topo k).drive = 2 then
      match tapped a, tapped b with
      | [i], [j] =>
        let x := fget (a.getD i 0) 0 7
        let y := fget (b.getD j 0) 0 7
        m.get d F.ADC_CTL_MODE (2 * p) == 1 && i == j &&
          ((x == 10 * k + 7 && y == 10 * k + 8) || (x == 10 * k + 8 && y == 10 * k + 7))
      | _, _ => false
    else (tapped a).isEmpty && (tapped b).isEmpty
  | none => (tapped a).isEmpty && (tapped b).isEmpty

/-- CMT of a pair (R132). -/
def Image.cmtOk (m : Image) (d : Dev) (p : Nat) : Bool :=
  let all := m.used d (2 * p) ++ m.used d (2 * p + 1)
  let taps := all.filter hasCmt
  match m.axisOfPair p with
  | some k =>
    if (uget m.topo k).drive < 2 then
      let phase := fun (w : Word) (i : Nat) => fget w 0 7 == 10 * k + 3 + i
      (taps.all fun w => (List.range 3).any (phase w)) && (List.range 3).all fun i => taps.any fun w => phase w i
    else taps.isEmpty
  | none => taps.isEmpty

/-- FIELD_RANGE of the registers of a bank pair. -/
def Image.pairOk (m : Image) (d : Dev) (p : Nat) : Bool :=
  let e := 2 * p
  let o := 2 * p + 1
  let len := fun b => m.get d F.ADC_CTL_LEN b
  let mode := m.get d F.ADC_CTL_MODE e
  let bankOk := fun b => decide (len b ≤ 16) && (m.used d b).all (fun w => entryOk w (m.axisOfPair p)) &&
    (List.range 16).all fun j => decide (j < len b) || m.reg d (F.ADC_SEQ.at_ b + j) == 0
  let sync := mode == 0 || m.get d F.ADC_CTL_SYNC o == 0
  bankOk e && bankOk o && decide (mode < 3 ∧ m.get d F.ADC_CTL_REFSEL e < 3) && sync &&
    (mode != 1 || len e == len o) &&
    (mode != 2 || (len o == 0 && (m.used d e).all fun w => fget w 10 10 % 2 == 0 && !hasFbt w && !hasCmt w)) &&
    m.fbtOk d p && m.cmtOk d p

/-- The CMT entries of a pair share one GAIN (R239). -/
def Image.cmtGains (m : Image) (d : Dev) (p : Nat) : Bool :=
  match ((m.used d (2 * p) ++ m.used d (2 * p + 1)).filter hasCmt).map fun w => fget w 7 3 with
  | [] => true
  | g :: gs => gs.all fun x => x == g

/-- PASS of a bank (R128, R130, R131). In an interleaved pair the odd bank, whose own LEN is 0, shows the even bank's pass, which
it samples with (DEDUCED, log entry 84). -/
def Image.pass (m : Image) (d : Dev) (b : Nat) : Nat :=
  let samp := fun (b j : Nat) => fget (m.reg d (F.ADC_SEQ.at_ b + j)) 10 10
  let e := 2 * (b / 2)
  match m.get d F.ADC_CTL_MODE e with
  | 1 => (List.range (m.get d F.ADC_CTL_LEN e)).foldl (fun n j => n + max (samp e j) (samp (e + 1) j)) 0
  | 2 => (List.range (m.get d F.ADC_CTL_LEN e)).foldl (fun n j => n + samp e j) 0
  | _ => (List.range (m.get d F.ADC_CTL_LEN b)).foldl (fun n j => n + samp b j) 0

/-- The two FBT entries of a feedback unit's pair have equal SAMP and GAIN (R159). -/
def Image.fbtEqual (m : Image) (d : Dev) (u : Nat) : Bool :=
  match m.primaries.find? fun k => (uget m.topo k).drive == 2 && (uget m.topo k).fbk == u with
  | none => true
  | some k =>
    let p := (uget m.topo k).pair
    match (m.used d (2 * p)).find? hasFbt, (m.used d (2 * p + 1)).find? hasFbt with
    | some x, some y => fget x 7 3 == fget y 7 3 && fget x 10 10 == fget y 10 10
    | _, _ => true

/-! ### GEY (R61, R65) -/

/-- What the image's table is checked against. -/
def Image.slotEnv (m : Image) (d : Dev) : SlotEnv :=
  let slew := if m.get d F.GEY_SYNC_FOLLOW = 1 then m.get d F.GEY_SYNC_SLEW else 0
  { p := m.get d F.GEY_PERIOD_PERIOD - slew
    axes := m.primaries.foldl (fun x k => setBit x k true) 0
    wcet := m.primaries.foldl (fun t k => uset t k (uget m.progs (uget m.topo k).prog).wcet) [] }

/-- The slot words with the reserved bits that the record carries. -/
def Image.slotWords (m : Image) (d : Dev) (es : List (Nat × Word)) : List Word :=
  (List.range 32).map fun s => match es.reverse.find? fun e => e.1 == F.GEY_SLOT.at_ s with
    | some e => e.2
    | none => m.reg d (F.GEY_SLOT.at_ s)

/-! ### CAN (R348, R349, R358) -/

/-- FIELD_RANGE of a CAN record beside its bit timing and its ring. -/
def Image.canOk (m : Image) (d : Dev) (c : Nat) : Bool :=
  let fs := (uget m.filters c).map Prod.snd
  let action := fun (f : Word × Word) => fget f.1 30 3
  let rpl := m.get d F.CAN_CTL_RPLBUF c == 1
  let listen := m.get d F.CAN_CTL_LISTEN c == 1
  (fs.all fun f => decide (action f < 5) && (f.1.getLsbD 29 || (fget f.1 11 18 == 0 && fget f.2 11 18 == 0))) &&
    (rpl || !fs.any fun f => action f == 3) && !(rpl && listen) && !(c == 3 && listen)

/-! ### JNL and LIMITS (R48, R49, R153, R233, R267) -/

/-- FIELD_RANGE of a JNL record. -/
def jnlRange (r : Rec) : Bool :=
  let size := le r.body 0 2
  within 64 1024 size && size % 64 == 0 && within 1 16 (byteAt r.body 3) && within 1 16777215 (le r.body 4 4) &&
    (pieces 4 (byteAt r.body 3) (r.body.drop 8)).all fun e =>
      decide (byteAt e 0 ≤ byteAt e 1) &&
        ((byteAt e 2 == 0 && byteAt e 3 == 0xFF) || (byteAt e 2 == 1 && decide (byteAt e 3 < 16)))

/-- No two class ranges overlap. -/
def classesApart : List ClassR → Bool
  | [] => true
  | c :: cs => (cs.all fun x => decide (c.last < x.first ∨ x.last < c.first)) && classesApart cs

/-- FIELD_RANGE of a range entry. -/
def Range.encoded (r : Range) : Bool :=
  decide (r.lsb < 40 ∧ 1 ≤ r.width ∧ r.width ≤ 40 - r.lsb) &&
    (if r.sgn then decide (signed r.width r.min.toNat ≤ signed r.width r.max.toNat)
     else decide (r.min.toNat % 2 ^ r.width ≤ r.max.toNat % 2 ^ r.width))

/-- ILIM of an enabled single or primary axis (R233). -/
def Image.ilimOk (m : Image) (d : Dev) (k : Nat) : Bool := within 1 (2 ^ 33) (m.reg d (F.AX_ILIM.at_ k)).toNat

/-- TRAMP of an axis whose policy is RAMP (R267). -/
def Image.trampOk (m : Image) (d : Dev) (k : Nat) : Bool :=
  m.get d F.LEG_CFG_POLICY (3 * k) != 3 || decide (1 ≤ m.get d F.AX_RAMP_TRAMP k)

/-- The thresholds of an accumulator (R153). -/
def Image.tripOk (m : Image) (d : Dev) (n : Nat) : Bool :=
  let lo := m.get d F.ACC_TRIP_LOEN n == 1
  let hi := m.get d F.ACC_TRIP_HIEN n == 1
  (!(lo && hi) || decide (signed 16 (m.get d F.ACC_TRIP_TLO n) < signed 16 (m.get d F.ACC_TRIP_THI n))) &&
    !((lo || hi) && n / 16 % 2 == 1 && m.get d F.ADC_CTL_MODE (n / 16 - 1) == 2)

/-- FIELD_RANGE of what a LIMITS record writes. -/
def Image.limitsOk (m : Image) (d : Dev) (r : Rec) : Bool :=
  let wrote := fun a => r.entries.any fun e => e.1 == a
  (m.primaries.all fun k =>
    (!wrote (F.AX_ILIM.at_ k) || m.ilimOk d k) && (!wrote (F.AX_RAMP.at_ k) || m.trampOk d k)) &&
  ((List.range 256).all fun n => !wrote (F.ACC_TRIP.at_ n) || m.tripOk d n) && m.ranges.all Range.encoded

/-- No entry writes AX_ILIM of a disabled or secondary axis. -/
def Image.limitsBound (m : Image) (r : Rec) : Bool :=
  (List.range 8).all fun k => (uget m.topo k).isPrimary || !r.entries.any fun e => e.1 == F.AX_ILIM.at_ k

/-! ### The first pass (R469) -/

/-- Registers whose fields with a range are WDN. -/
def wdnRanged (a : Nat) : Bool :=
  a == 0x1B01 || a == 0x1F01 || a == 0x1F02 || (decide (0x400 ≤ a ∧ a < 0x800) && (a % 128 == 0x01 || a % 128 == 0x25)) ||
    (decide (0x1000 ≤ a ∧ a < 0x1800) && a % 8 == 4)

/-- A value that one entry carries lies within the ranges of the fields that its record may write there (R40), with the other
registers as the whole record leaves them; of an entry that may not write them, no field is judged, and ADDRESS refuses it.
Relations between registers, and between fields where a field may be unused, are left to the record as a whole. -/
def Image.entryOk (m : Image) (d : Dev) (r : Rec) (e : Nat × Word) : Bool :=
  let m := m.entry d r e
  let w := m.reg d e.1
  !(r.permits e.1 && (r.typ == 0x09) == wdnRanged e.1) ||
  m.fieldOk d e.1 &&
  (if 0x0C00 ≤ e.1 ∧ e.1 < 0x1000 then
    let o := e.1 % 64
    if o < 0x10 then w == 0 || decide (fget w 0 7 < 96 ∧ fget w 7 3 ≤ 4 ∧ 8 ≤ fget w 10 10)
    else if o = 0x10 then decide (fget w 0 5 ≤ 16 ∧ fget w 6 2 < 3 ∧ fget w 8 2 < 3)
    else true
  else if 0x0110 ≤ e.1 ∧ e.1 < 0x0130 then slotRange { m.slotEnv d with wcet := [] } e.2
  else if 0x1000 ≤ e.1 ∧ e.1 < 0x1800 ∧ e.1 % 8 = 4 then
    !(w.getLsbD 32 && w.getLsbD 33) || decide (signed 16 (fget w 0 16) < signed 16 (fget w 16 16))
  else if 0x1C00 ≤ e.1 ∧ e.1 < 0x1E00 ∧ e.1 % 128 = 0x0B then decide (fget e.2 30 3 < 5)
  else (List.range 8).all fun k =>
    (e.1 != F.AX_ILIM.at_ k || !(uget m.topo k).isPrimary || m.ilimOk d k) &&
      (e.1 != F.AX_RAMP.at_ k || !(uget m.topo k).isPrimary || m.trampOk d k))

/-- The unused entries of a pair's banks carry 0 in every bit, the reserved ones included (R124). -/
def Image.unusedZero (m : Image) (d : Dev) (r : Rec) : Bool :=
  [2 * r.inst, 2 * r.inst + 1].all fun b => (List.range 16).all fun j =>
    decide (j < m.get d F.ADC_CTL_LEN b) ||
      match r.entries.reverse.find? fun e => e.1 == F.ADC_SEQ.at_ b + j with
      | some e => e.2 == 0
      | none => true

/-- FIELD_RANGE of a record, once it has been applied; every entry is judged, also one that a later entry of the record
overwrites (R469). -/
def Image.rangeOk (m : Image) (d : Dev) (r : Rec) : Bool :=
  (r.entries.all fun e => m.entryOk d r e) &&
  match r.typ with
  | 0x01 => (List.range 8).all fun k => (uget m.topo k).rangeOk
  | 0x02 => legRange r
  | 0x03 => r.inst == 8 || (m.pairOk d r.inst && m.unusedZero d r)
  | 0x04 => m.fbtEqual d r.inst
  | 0x05 => match tableBreach { m.slotEnv d with wcet := [] } (m.slotWords d r.entries) with
    | some b => decide (3 < b.reason)
    | none => true
  | 0x06 => within 1 65535 (le r.body 0 4) && decide (1 ≤ le r.body 4 2 ∧ byteAt r.body 8 ≤ 64)
  | 0x07 => m.canOk d r.inst
  | 0x08 => jnlRange r
  | 0x09 => m.limitsOk d r
  | _ => true

/-- BINDING of a record. -/
def Image.bindOk (m : Image) (before : List Rec) (r : Rec) : Bool :=
  match r.typ with
  | 0x01 => topologyBound m.topo
  | 0x02 => legBound m before r
  | 0x08 => classesApart m.classes
  | 0x09 => m.limitsBound r
  | _ => true

/-- FIT_PROG of a record (R46). -/
def Rec.fits (r : Rec) : Bool := r.typ != 0x06 || decide (le r.body 4 2 ≤ 8192 ∧ le r.body 6 2 ≤ 4096)

/-- The first pass: each record is applied and checked, in image order. -/
def passOne (d : Dev) : List Rec → List Rec → Image → Image × Option ImgErr
  | _, [], m => (m, none)
  | before, r :: rest, m =>
    let m := m.apply d r
    match firstErr [errIf (!m.rangeOk d r) (r.err Img.fieldRange), errIf (!m.bindOk before r) (r.err Img.binding),
        errIf r.addressBad (r.err Img.address), errIf (!r.fits) (r.err Img.fitProg)] with
    | some e => (m, some e)
    | none => passOne d (before ++ [r]) rest m

/-! ### The second pass (R466, R469) -/

/-- The entry that last wrote the host's fields of a register, or its WDN fields. -/
def Image.writer (m : Image) (a : Nat) (wdn : Bool) : Option (Nat × Nat × Nat) :=
  (m.wrote.find? fun p => p.1 == 2 * a + b2n wdn).map Prod.snd

/-- The place named for a register: the record that wrote it last, or the given one; LIMITS for WDN fields. -/
def Image.named (m : Image) (a dflt : Nat) : Nat :=
  match m.writer a (dflt == 0x900) with
  | some (t, i, _) => 256 * t + i
  | none => dflt

/-- Registers of the resources in use, with the record named for a field that no entry wrote. R466 names no record for a
SEAL field of the CON block (CON_MAP, R321): the model names PRESET, the one record that may address it (DESIGN CHOICE, log
entry 62). -/
def Image.finals (m : Image) (rs : List Rec) : List (Nat × Nat) :=
  let units := (List.range 8).filter fun u => (List.range 8).any fun k => (uget m.topo k).en && (uget m.topo k).fbk == u
  let cans := (List.range 4).filter fun c => (recAt rs (0x700 + c)).isSome
  [(0x0100, 0x500), (0x0101, 0x500), (0x1B01, 0x900), (0x1F01, 0x900), (0x1F02, 0x900)] ++
    ((List.range 17).map fun q => (0x1B10 + q, 0xA00)) ++
    (units.flatMap fun u => [(0x1900 + 32 * u, 0x400 + u), (0x1901 + 32 * u, 0x400 + u)]) ++
    cans.flatMap fun c => [(0x1C01 + 128 * c, 0x700 + c), (0x1C02 + 128 * c, 0x700 + c), (0x1C0D + 128 * c, 0x700 + c)]

/-- OBSREP of an enabled axis (R237). -/
def Image.obsrepOk (m : Image) (d : Dev) (k : Nat) : Bool :=
  let o := m.get d F.AX_CFG_OBSREP k
  let t := uget m.topo k
  o == 7 || (decide (o < 6) && t.isPrimary && t.drive != 2)

/-- CHYS and FW of a sensorless axis (R239). -/
def Image.commOk (m : Image) (d : Dev) (k : Nat) : Bool :=
  let t := uget m.topo k
  !(t.isPrimary && decide (t.drive < 2)) ||
    (within 1 32767 (m.get d F.AX_CTHR_CHYS k) && (t.drive != 1 || within 2 30 (m.get d F.AX_COMM_FW k)))

/-- The records that FIELD_RANGE names in the second pass. -/
def Image.finalBad (m : Image) (d : Dev) (rs : List Rec) : List Nat :=
  let on := (List.range 8).filter fun k => (uget m.topo k).en
  let pairs := on.map fun k => (uget m.topo k).pair
  (((m.finals rs).filter fun p => !m.fieldOk d p.1).map fun p => m.named p.1 p.2) ++
    (pairs.filter fun p => !m.pairOk d p || !m.cmtGains d p).map (fun p => 0x300 + p) ++
    (on.filter fun k => !m.obsrepOk d k || !m.commOk d k).map (fun _ => 0x100) ++
    ((List.range 8).filter fun k => m.get d F.AX_CFG_OBSREP k == 6).map (fun _ => 0x100) ++
    (m.primaries.filter fun k => !m.ilimOk d k).map (fun k => m.named (F.AX_ILIM.at_ k) 0x900) ++
    (m.primaries.filter fun k => !m.trampOk d k).map fun k => m.named (F.AX_RAMP.at_ k) 0x900

/-- The error that names the record at a place. -/
def placeErr (rs : List Rec) (code p : Nat) : ImgErr :=
  match recAt rs p with
  | some r => r.err code
  | none => { code := code, typ := p / 256, inst := p % 256 }

/-- The second pass: FIELD_RANGE in the first record by TYPE and INSTANCE, then the pair mode of R42. -/
def passTwo (d : Dev) (rs : List Rec) (m : Image) : Option ImgErr :=
  match m.finalBad d rs with
  | p :: ps => some (placeErr rs Img.fieldRange (ps.foldl min p))
  | [] =>
    let mode := m.primaries.any fun k =>
      (uget m.topo k).drive == 2 && m.get d F.ADC_CTL_MODE (2 * (uget m.topo k).pair) != 1
    errIf mode (placeErr rs Img.binding 0x100)

/-! ### FIT_TIME and LIMIT (R47, R49 to R51, R65) -/

/-- FIT_TIME. -/
def Image.timeErr (m : Image) (d : Dev) (rs : List Rec) : Option ImgErr :=
  match tableBreach (m.slotEnv d) ((List.range 32).map fun s => m.reg d (F.GEY_SLOT.at_ s)) with
  | some _ => some (placeErr rs Img.fitTime 0x500)
  | none => none

/-- A range entry names exactly one LIVE field, with bounds that fit it (R49, R50). -/
def Range.live (r : Range) : Bool :=
  let fits := fun (w : Word) => w == (if r.sgn then wordI (signed r.width w.toNat) else wordN (w.toNat % 2 ^ r.width))
  fits r.min && fits r.max && (fieldsAt r.addr).any fun f => f.acc == .live && f.lo == r.lsb && f.width == r.width

/-- LIMIT of the range entries. -/
def Image.rangesErr (m : Image) (rs : List Rec) : Option ImgErr :=
  errIf (m.ranges.any fun r => !r.live) (placeErr rs Img.limit 0x900)

/-- LIMIT at the seal (R51, R57 step 2): the LIVE fields that the image leaves outside their range. A field that no record
wrote is checked at its reset value. Of several fields outside their ranges, the first in the order of the range entries is
named (DESIGN CHOICE, log entry 62). -/
def Image.liveErr (m : Image) (d : Dev) : Option ImgErr :=
  let by_ := fun (r : Range) => m.writer r.addr false
  let value := fun (r : Range) => if (by_ r).isSome then m.reg d r.addr else regReset r.addr
  (m.ranges.find? fun r => !r.holds (fget (value r) r.lsb r.width)).map fun r => match by_ r with
    | some (t, i, off) => { code := Img.limit, typ := t, inst := i, off := off }
    | none => { code := Img.limit, typ := 0x09, off := m.limOff }

/-! ### The whole check (R54) -/

/-- The image with its seal-time registers: the active table, PASS, the qualifying programs and the engines' bindings. -/
def Image.derive (m : Image) (d : Dev) : Image :=
  let m := (List.range 32).foldl (fun m s => m.setReg (F.GEY_ASLOT.at_ s) (m.reg d (F.GEY_SLOT.at_ s))) m
  let m := (List.range 16).foldl (fun m b => m.put d F.ADC_PASS_PASS b (m.pass d b)) m
  let qual := (List.range 8).foldl
    (fun x p => if (m.progs.any fun q => q.1 == p) && decide ((uget m.progs p).wcet ≤ 3200) then setBit x p true else x) 0
  let m := m.put d F.ENG_PQUAL_QUAL 0 qual
  (List.range 8).foldl (fun m e => match m.primaries.find? fun k => (uget m.topo k).engine == e with
    | some k => (m.put d F.ENG_STAT_AXIS e k).put d F.ENG_STAT_HASAXIS e 1
    | none => m.put d F.ENG_STAT_STATE e 4) m

/-- The structural checks after LENGTH of the header: LENGTH of the records, TARGET, REC_FORMAT to REC_MISSING. -/
def Dev.structErr (d : Dev) (bs : List Byte) (rs : List Rec) (walk : Option ImgErr) : Option ImgErr :=
  let count := errIf (le bs 0x14 2 != rs.length) { code := Img.length }
  let target := errIf (le bs 0x0C 2 != 0x0840 || decide (d.get F.SNT_REV_REV < le bs 0x0E 1)) { code := Img.target }
  firstErr [walk, count, target, errIf (!headerReserved bs) { code := Img.recFormat }, recsErr none rs,
    missingErr rs bs.length]

/-- The semantic checks of an image's load; its LIVE fields meet their ranges at the seal (`Image.liveErr`, R57; log entry 62). -/
def Dev.semantics (d : Dev) (rs : List Rec) : Image × Option ImgErr :=
  let x := passOne d [] rs { filters := (List.range 4).foldl (fun t c => uset t c (d.ctl c).filters) [] }
  (x.1, firstErr [x.2, passTwo d rs x.1, x.1.timeErr d rs, x.1.rangesErr rs])

/-- An image checked: its refusal, or the image that a seal applies. `push` is LEN of a host push. -/
def Dev.checkImage (d : Dev) (otp : List (Nat × Option Word)) (copy : List Byte) (push : Option Nat) : Except ImgErr Image :=
  match headerErr copy push with
  | some e => .error e
  | none =>
    let len := le copy 8 4
    let bs := copy.take len ++ List.replicate (len - copy.length) 0
    let w := walkRecs (len / 12) 32 (bs.drop 32)
    match firstErr [d.structErr bs w.1 w.2] with
    | some e => .error e
    | none =>
      match recAt w.1 0xFF00 with
      | none => .error { code := Img.recMissing, typ := 0xFF, off := len }
      | some sig =>
        match d.authErr otp bs sig with
        | some e => .error e
        | none =>
          let x := d.semantics w.1
          match x.2 with
          | some e => .error e
          | none => .ok { x.1 with
              keySlot := le bs 0x12 1 % 4, rollback := le bs 0x10 2, diag := (le bs 0x13 1).testBit 0,
              advance := (le bs 0x13 1).testBit 1, buildId := le bs 0x18 4, digest := signedDigest bs sig.off }

end Sys2Proof.Machine
end

