-- ==== Sys2Proof/Machine/Seal.lean ====
section
/-! DEFINITION. Loading and sealing (R29 to R31, R54 to R60): sources, refusals, the steps of the seal, and the Vent die's
confirmation of its configuration. -/

namespace Sys2Proof.Machine

/-! ### Sources and refusals (R29 to R31, R54) -/

-- Values of SYS_IMGSTAT.STATE
namespace ImgSt
def loading : Nat := 0
def sealed : Nat := 1
def failed : Nat := 2
def diag : Nat := 3
def waitHost : Nat := 4
end ImgSt

/-- SYS_IMGERR and SYS_IMGOFF take an error. -/
def Dev.showErr (d : Dev) (e : ImgErr) : Dev :=
  (((d.put F.SYS_IMGERR_CODE 0 e.code).put F.SYS_IMGERR_TYPE 0 e.typ).put F.SYS_IMGERR_INSTANCE 0 e.inst).put
    F.SYS_IMGOFF_OFFSET 0 e.off

/-- An image is refused, and the next source is tried: the secondary copy, a host push, or another push. -/
def Dev.imgRefused (d : Dev) (push : Bool) (e : ImgErr) : Dev :=
  let d := d.showErr e
  if push then d.put F.SYS_IMGSTAT_STATE 0 ImgSt.failed
  else
    let next := d.img.nextCopy + 1
    let d := { d with img := { d.img with nextCopy := next } }
    if next < 2 then d else d.put F.SYS_IMGSTAT_STATE 0 ImgSt.waitHost

/-- A checked image awaits its seal, or a refused one is reported. -/
def Dev.imgChecked (d : Dev) (source : Nat) (r : Except ImgErr Image) : Dev :=
  match r with
  | .ok m =>
    { d with img := { d.img with staged := some { m with source := source } } }.put F.SYS_IMGSTAT_STATE 0 ImgSt.loading
  | .error e => d.imgRefused (source == 3) e

/-- The warden waits for an image. -/
def Dev.mayLoad (d : Dev) : Bool :=
  d.wardenUp && d.flag F.SNT_STAT_BOOTDONE && !d.sys.sealed && !d.img.sealing && d.img.staged.isNone

/-- Words as a table from an address on. -/
def wordTable (base : Nat) (ws : List Word) : List (Nat × Word) :=
  (((List.range ws.length).zip ws).map fun p => (base + p.1, p.2)).filter fun p => p.2 != default

/-- The IMG_LEN bytes of a flash copy are staged from word 0 of M0 on, five to a word as in a host push (R31, R32). A copy
whose header is refused is not read on, and nothing of it is staged (R30). The place and the packing are DEDUCED from the
host push (log entry 62). -/
def Dev.stageCopy (d : Dev) (copy : List Byte) : Dev :=
  if (headerErr copy none).isSome then d
  else
    let n := (le copy 8 4 + 4) / 5
    let ws := (pieces 5 n (copy.take (le copy 8 4))).map fun b => wordN (leNat b)
    d.conFill (fun a => decide (a < n)) (wordTable 0 ws)

/-- IMAGE_LOAD: a copy in the boot flash is read, staged and checked. -/
def Dev.imageLoad (d : Dev) (otp : List (Nat × Option Word)) (copy : List Byte) : Dev :=
  if d.mayLoad && d.get F.SYS_IMGSTAT_STATE == ImgSt.loading && decide (d.img.nextCopy < 2) then
    (d.stageCopy copy).imgChecked (d.img.nextCopy + 1) (d.checkImage otp copy none)
  else d

/-- The bytes of a pushed image in Caldera (R31). With LEN below the size of the header, the header's bytes beyond LEN are
read as 0, so the header is refused by its first row of R54 that such bytes fail (DESIGN CHOICE, log entry 62). A word with an
error tag reads as 0 (DESIGN CHOICE, log entry 87). -/
def Dev.pushed (d : Dev) (len : Nat) : List Byte :=
  let n := min len 1048576
  ((List.range ((n + 4) / 5)).flatMap fun i => leBytes 5 (d.conSees i).toNat).take n

/-- A write of SYS_IMGPUSH; one with GO = 1 is refused outside WAIT_HOST and FAILED. -/
def Dev.imgPush (d : Dev) (otp : List (Nat × Option Word)) (w : Word) : Option Dev :=
  let st := d.get F.SYS_IMGSTAT_STATE
  if !w.getLsbD 39 then some d
  else if st != ImgSt.waitHost && st != ImgSt.failed then none
  else if !d.mayLoad then none
  else some ((d.conMeets 0 ((min (fget w 0 21) 1048576 + 4) / 5)).imgChecked 3 (d.checkImage otp (d.pushed (fget w 0 21)) (some (fget w 0 21))))

/-! ### The seal (R57) -/

/-- The memories of the engines take the programs (R57 step 1, R177). -/
def Dev.loadEngines (d : Dev) (m : Image) : Dev :=
  let d := d.each m.primaries fun k d =>
    let p := uget m.progs (uget m.topo k).prog
    let e := (uget m.topo k).engine
    d.modEng e fun u => { u with pmem := wordTable 0 p.code, dmem := wordTable 0 p.data }
  let code := m.progs.flatMap fun q => wordTable (8192 * q.1) q.2.code
  let data := m.progs.flatMap fun q => wordTable (4096 * q.1) q.2.data
  d.each [8, 9] fun e d => d.modEng e fun u => { u with pmem := code, dmem := data }

/-- Both halves of every axis's checkpoint become invalid (R197). -/
def Dev.dropCkpts (d : Dev) : Dev :=
  d.each (List.range 16) fun h d =>
    let a := ckptAt (h / 2) (h % 2) + 0x40
    d.conWrite a (d.cal a &&& ~~~(fmask 39 1))

/-- A register takes a word; a FREEZE that comes with it freezes the bank's estimates (R140). -/
def Dev.loadReg (d : Dev) (a : Nat) (w : Word) : Dev :=
  let d := d.setReg a w
  if 0x0C00 ≤ a ∧ a < 0x1000 ∧ a % 64 = 0x12 then d.putB F.ADC_STAT_FROZEN ((a - 0x0C00) / 64) (w.getLsbD 0) else d

/-- CODE or MASK of a filter, as a record or its refusal leaves it. -/
def Dev.loadFilter (d : Dev) (c i part : Nat) (w : Word) : Dev :=
  d.modCtl c fun u =>
    let old := uget u.filters i
    { u with filters := uset u.filters i (if part = 0 then (w, old.2) else (old.1, w)) }

/-- Step 1 of R57: what the records write. -/
def Dev.loadImage (d : Dev) (m : Image) : Dev :=
  let d := m.regs.foldl (fun x p => x.loadReg p.1 (m.reg d p.1)) d
  let d := m.filterEntries.foldl (fun d e => d.loadFilter e.1 e.2.1 e.2.2.1 e.2.2.2) d
  (d.loadEngines m).dropCkpts

/-- The reference buffer of a pair is disabled again: REF_OK is 0, and nothing of the pair is asserted. -/
def Dev.refsOff (d : Dev) (p : Nat) : Dev :=
  let d := d.each (pairBanks p) fun b d => d.putB F.ADC_STAT_REFOK b false
  d.each (pairAccs p) fun n d => d.putB F.ACC_TSTAT_OUT n false

/-- An image is refused after step 1. DESIGN CHOICE (log entry 62, unsafe): what its records wrote returns to the reset
values, for VENT as for LIMIT, and the references that it enabled are off. -/
def Dev.sealRefused (d : Dev) (m : Image) (e : ImgErr) : Dev :=
  let d := m.regs.foldl (fun d p => d.loadReg p.1 ((regReset p.1 &&& m.mask p.1) ||| (d.reg p.1 &&& ~~~(m.mask p.1)))) d
  let d := m.filterEntries.foldl (fun d e => d.loadFilter e.1 e.2.1 e.2.2.1 0) d
  let d := d.each (bitsOf 8 m.pairs) fun p d => d.refsOff p
  let d := { d with img := { d.img with cur := {}, staged := none, sealing := false } }
  d.imgRefused (m.source == 3) e

/-- SEAL: steps 1 to 3. The image is written, its LIVE fields are checked, and the configuration goes to the Vent die. -/
def Dev.sealStart (d : Dev) : Dev :=
  match d.img.staged with
  | none => d
  | some m =>
    if !d.wardenUp || d.img.sealing || d.sys.sealed then d
    else
      let m := m.derive d
      let x := d.loadImage m
      match m.liveErr d with
      | some e => x.sealRefused m e
      | none =>
        let x := { x with img := { x.img with cur := m, sealing := true } }
        (x.modLink fun l => { l with cfgTry := 0 }).sendCfg false

/-- The image is refused with VENT. -/
def Dev.sealFailed (d : Dev) : Dev := d.sealRefused d.img.cur { code := Img.vent }

/-- The retained journal is discarded (R60), and its words hold 0. -/
def Dev.jnlDiscard (d : Dev) : Dev :=
  let d := d.conFill (fun a => decide (calAddr 14 0 ≤ a ∧ a % 32768 < 0x2050)) []
  d.modJnl fun j => { j with
    entries := [], head := 0, sources := [], ops := [], axisRec := [], params := [], clr := none, unwritten := [], undo := none }

/-- The sealed digest in the warden's retention records: word 0x7801 + n of M14 holds what SYS_IMGDIGn shows. R317 gives the
records' place and not their words (DESIGN CHOICE, log entry 33). -/
def Dev.keepDigest (d : Dev) (digest : Nat) : Dev :=
  { d with sys := { d.sys with retDigest := some digest } }.conWrites
    (tabulate 8 fun n => (calAddr 14 0x7801 + n, wordN (digest / 2 ^ (32 * (7 - n)) % 2 ^ 32)))

/-- The retained journal is kept and restored, or dropped, by the digest of the image that it belongs to (R60, R311). -/
def Dev.jnlSeal (d : Dev) : Dev :=
  let digest := d.img.cur.digest
  let d' := d.keepDigest digest
  match d.sys.retDigest with
  | none => d'
  | some x =>
    if x = digest then (d'.putB F.SYS_IMGSTAT_JNL_KEPT 0 true).jnlRestore
    else (d'.putB F.SYS_IMGSTAT_JNL_DROPPED 0 true).jnlDiscard

/-- The commutation units of encoder axes stay in ENC from the seal on (R245, R248). -/
def Dev.sealUnits (d : Dev) : Dev :=
  d.each ((List.range 8).filter fun k => d.primary k && (d.topo k).drive == 2) fun k d =>
    (d.modComm k fun c => { c with st := .enc }).put F.AX_CSTAT_STATE k CState.enc.code

/-- Step 4: the image is sealed. -/
def Dev.sealDone (d : Dev) : Dev :=
  let m := d.img.cur
  let d := { d with img := { d.img with staged := none, sealing := false }, sys := { d.sys with sealed := true } }
  let d := d.conFill (fun a => decide (a < calAddr 7 0)) []
  let d := (d.showErr { code := 0 }).put F.SYS_IMGSTAT_STATE 0 (if m.diag then ImgSt.diag else ImgSt.sealed)
  let d := (((d.put F.SYS_IMGSTAT_SOURCE 0 m.source).put F.SYS_IMGSTAT_KEYSLOT 0 m.keySlot).put F.SYS_IMGSTAT_ROLLBACK 0
    m.rollback).put F.SYS_IMGBUILD_BUILD_ID 0 m.buildId
  let d := d.each (List.range 8) fun n d => d.put (F.SYS_IMGDIG_DIG.nth n) 0 (m.digest / 2 ^ (32 * (7 - n)))
  let d := d.each (List.range 4) fun c d =>
    if d.flag F.CAN_CTL_EN c then d.modCtl c fun u => { u with mode := .waitTick } else d
  let d := d.each m.primaries fun k d =>
    d.put F.ENG_CKPT_SIZE (uget m.topo k).engine (uget m.progs (uget m.topo k).prog).ckpt
  d.sealUnits.jnlSeal

/-! ### The Vent die's confirmation (R57, R59) -/

/-- VENT_CONFIG_CONFIRM: the CRC that the Vent die returned matches, or the configuration is sent again. -/
def Dev.cfgAgain (d : Dev) : Dev :=
  if d.link.cfgTry < 3 then d.sendCfg true
  else
    let d := d.modLink fun l => { l with cfg := none, cfgTry := 0 }
    if d.img.sealing then d.sealFailed else (d.putB F.DIE_LINK_CFGFAIL 0 true).raise 116

/-- A configuration that the Vent die has taken and confirmed; its brake legs change from the defaults to it (R93, R94). A
packet with VRST = 1 shows a new reset from here on (R425). -/
def Dev.cfgTaken (d : Dev) (c : VentCfg) : Dev :=
  let d := d.modVent fun v => (v.takeCfg c).brakesUpdate d.clk.now
  let d := (d.modLink fun l => { l with cfg := none, cfgTry := 0, rstArm := true }).putB F.VNT_STAT_CFGOK 0 true
  if d.img.sealing then d.sealDone else d

/-- VENT_CONFIG_CONFIRM. A Vent die in reset answers nothing. -/
def Dev.cfgConfirm (d : Dev) (same : Bool) : Dev :=
  match d.link.cfg with
  | none => d
  | some c =>
    if !d.wardenUp || d.vent.inReset then d
    else if same then (d.cfgTaken c).settle
    else ((d.modVent fun v => { v with cfgOk := false }).cfgAgain).settle

/-- VENT_CONFIG_TIMEOUT. -/
def Dev.cfgTimeout (d : Dev) : Dev := if d.wardenUp && d.link.cfg.isSome then d.cfgAgain.settle else d

/-! ### Meanings -/

/-- IMAGE_LOAD (R54). -/
def execImageLoad (copy : List Byte) (s : State) : Host.Outcome State Fault Refusal := s.liftOtp fun otp d => d.imageLoad otp copy
/-- SYS_IMGPUSH_GO (R31): a write of SYS_IMGPUSH by the host. -/
def execSysImgpushGo (w : Word) (s : State) : Host.Outcome State Fault Refusal :=
  s.liftOtp fun otp d => if d.hostUp then d.hostWrite F.SYS_IMGPUSH.addr (d.imgPush otp w) else d
/-- SEAL (R57). -/
def execSeal (s : State) : Host.Outcome State Fault Refusal := s.lift Dev.sealStart
/-- VENT_CONFIG_CONFIRM (R57, R59). -/
def execVentConfigConfirm (same : Bool) (s : State) : Host.Outcome State Fault Refusal := s.lift fun d => d.cfgConfirm same
/-- VENT_CONFIG_TIMEOUT (R57, R59). -/
def execVentConfigTimeout (s : State) : Host.Outcome State Fault Refusal := s.lift Dev.cfgTimeout

end Sys2Proof.Machine
end

