-- ==== Sys2Proof/Machine/Warden.lean ====
section
/-! DEFINITION. The warden's services (chapter 18): the mailbox, the programming of Sinter, locks, the programming window,
the rollback advance, engine-local resets and events routed to the warden. -/

namespace Sys2Proof.Machine

/-! ### Results and codes (R401, R402) -/

namespace Mb
def ok : Nat := 0x00
def badCode : Nat := 0x01
def badArg : Nat := 0x02
def locked : Nat := 0x03
def notBlank : Nat := 0x04
def window : Nat := 0x05
def verify : Nat := 0x07
def incomplete : Nat := 0x09
def sig : Nat := 0x0A
def rollback : Nat := 0x0B
def region : Nat := 0x0C
def aborted : Nat := 0x0D
def state : Nat := 0x0E
end Mb

/-- Argument register `i`. -/
def Dev.arg (d : Dev) (i : Nat) : Nat := (d.reg (F.WDN_MBARG.at_ i)).toNat

/-- A service that programs words of Sinter. -/
def programs (code : Nat) : Bool := decide (3 ≤ code ∧ code ≤ 7)

/-! ### Regions (R385, R386) -/

/-- A digest word of a key slot. -/
def isDigestWord (a : Nat) : Bool := decide (0x100 ≤ a ∧ a < 0x180 ∧ a % 0x20 < 8)
/-- A key word of a CMAC key. -/
def isKeyWord (a : Nat) : Bool := decide (0x180 ≤ a ∧ a < 0x1D0 ∧ (a - 0x180) % 5 < 4)
/-- A customer word. -/
def isCustomer (a : Nat) : Bool := decide (0x200 ≤ a ∧ a < 0x380)
/-- A rollback word. -/
def isRollback (a : Nat) : Bool := decide (0x380 ≤ a ∧ a < 0x3C0)

/-! ### The end and the start of a service (R400) -/

/-- A service of the mailbox ends: its results and EV122. -/
def Dev.mbEnd (d : Dev) (code result words : Nat) (res0 : Word := 0) (res1 : Word := 0) : Dev :=
  let d := (((d.put F.WDN_MBSTAT_STATE 0 2).put F.WDN_MBSTAT_RESULT 0 result).put F.WDN_MBSTAT_CODE 0 code).put
    F.WDN_MBSTAT_WORDS 0 words
  ((((d.setReg (F.WDN_MBRES.at_ 0) res0).setReg (F.WDN_MBRES.at_ 1) res1).setReg (F.WDN_MBRES.at_ 2) 0).setReg
    (F.WDN_MBRES.at_ 3) 0).raise 122

/-- A programming service starts its first pulse, if the window is open (R397, R398). -/
def Dev.mbRun (d : Dev) (code : Nat) (todo : List (Nat × Word)) (roll : Option Roll := none) : Dev :=
  if !d.windowOpen then d.mbEnd code Mb.window 0
  else (d.putB F.SNT_STAT_PROG 0 true).modWdn fun w => { w with svc := some { code := code, todo := todo, roll := roll } }

/-! ### The services (R401) -/

/-- OTP_READ. -/
def Dev.svcOtpRead (d : Dev) (otp : List (Nat × Option Word)) : Dev :=
  let a := d.arg 0
  if 1024 ≤ a then d.mbEnd 2 Mb.badArg 0
  else if isKeyWord a then d.mbEnd 2 Mb.region 0
  else if isRollback a then
    let w := d.rollWord otp a
    d.mbEnd 2 Mb.ok 0 w (if d.wordState otp a = .marginal then 2 else if w = 0 then 1 else 0)
  else match d.wordState otp a with
    | .good => d.mbEnd 2 Mb.ok 0 ((otpWord otp a).getD 0) 0
    | .blank => d.mbEnd 2 Mb.ok 0 0 (if isCustomer a && d.lockBit 3 then 3 else 1)
    | .marginal =>
      if isCustomer a then d.mbEnd 2 Mb.ok 0 0 2 else d.tick1.mbEnd 2 Mb.ok 0 (wordN d.freeNat) 2

/-- OTP_PROG. -/
def Dev.svcOtpProg (d : Dev) (otp : List (Nat × Option Word)) : Dev :=
  let a := d.arg 0
  if 1024 ≤ a then d.mbEnd 3 Mb.badArg 0
  else if !(isDigestWord a || isCustomer a) then d.mbEnd 3 Mb.region 0
  else if d.lockBit 4 || d.lockBit (if isDigestWord a then 1 else 3) then d.mbEnd 3 Mb.locked 0
  else if d.wordState otp a ≠ .blank then d.mbEnd 3 Mb.notBlank 0
  else d.mbRun 3 [(a, wordN (d.arg 1))]

/-- The five words of a CMAC key as they are programmed: the scrambled key and its check value. -/
def Dev.keyProgram (d : Dev) : List Word :=
  let bits := [d.arg 1, d.arg 2, d.arg 3, d.arg 4]
  (List.zipWith (fun w m => wordN (w ^^^ m)) bits maskWords) ++ [wordN (checkValue (keyBytes bits))]

/-- KEY_PROG. -/
def Dev.svcKeyProg (d : Dev) (otp : List (Nat × Option Word)) : Dev :=
  let j := d.arg 0
  if 16 ≤ j ∨ [1, 2, 3, 4].any fun i => decide (2 ^ 32 ≤ d.arg i) then d.mbEnd 4 Mb.badArg 0
  else if d.lockBit 2 || d.lockBit 4 then d.mbEnd 4 Mb.locked 0
  else if (cmacWords j).any fun a => d.wordState otp a != .blank then d.mbEnd 4 Mb.notBlank 0
  else d.mbRun 4 ((cmacWords j).zip d.keyProgram)

/-- Revoking slot `s` leaves no VALID slot, or takes the slot of the sealed image. -/
def Dev.revokeHurts (d : Dev) (otp : List (Nat × Option Word)) (s : Nat) : Bool :=
  ((List.range 4).all fun i => i == s || d.slotState otp i != 1) ||
    (d.sys.sealed && !d.img.cur.diag && d.img.cur.keySlot == s)

/-- REVOKE. The value that it programs is not stated: log entry 28. -/
def Dev.svcRevoke (d : Dev) (otp : List (Nat × Option Word)) : Dev :=
  let x := d.arg 0
  let key := x.testBit 0
  let n := x / 2 % 16
  let force := x.testBit 8
  let rev := if key then cmacRev n else slotRev n
  if x ≠ x % 32 + b2n force * 256 ∨ (!key ∧ 4 ≤ n) then d.mbEnd 5 Mb.badArg 0
  else if d.wordState otp rev ≠ .blank then d.mbEnd 5 Mb.notBlank 0
  else if !force && !key && d.revokeHurts otp n then d.mbEnd 5 Mb.incomplete 0
  else d.tick1.mbRun 5 [(rev, wordN d.freeNat)]

/-- LOCK of a region with unfinished keys, or with no VALID slot (R396). -/
def Dev.lockHurts (d : Dev) (otp : List (Nat × Option Word)) (r : Nat) : Bool :=
  let begun := fun (words : List Nat) => words.any fun a => d.wordState otp a != .blank
  if r = 1 then
    (List.range 4).any (fun s => d.slotState otp s == 0 && begun (slotWords s)) ||
      (List.range 4).all fun s => d.slotState otp s != 1
  else if r = 2 then (List.range 16).any fun j => d.cmacState otp j == 0 && begun (cmacWords j)
  else false

/-- LOCK. -/
def Dev.svcLock (d : Dev) (otp : List (Nat × Option Word)) : Dev :=
  let x := d.arg 0
  let r := x % 8
  let force := x.testBit 8
  if x ≠ r + b2n force * 256 ∨ 4 < r then d.mbEnd 6 Mb.badArg 0
  else if r = 0 then d.mbEnd 6 Mb.region 0
  else if d.lockBit 4 then d.mbEnd 6 Mb.locked 0
  else if (recordCopies r).any fun a => d.wordState otp a != .blank then d.mbEnd 6 Mb.notBlank 0
  else if !force && d.lockHurts otp r then d.mbEnd 6 Mb.incomplete 0
  else d.mbRun 6 ((recordCopies r).map fun a => (a, wordN (0x4C4F434B00 + r)))

/-- The first bit of a counter, from bit `v` on, that reads 0; 1,280 when there is none. -/
def Dev.freeBit (d : Dev) (otp : List (Nat × Option Word)) (base v : Nat) : Nat :=
  ((List.range 1280).find? fun b => decide (v ≤ b) && !(d.rollWord otp (base + b / 40)).toNat.testBit (b % 40)).getD 1280

/-- The counter that ROLL_ADV names. -/
def Dev.argCounter (d : Dev) : Nat := if (d.arg 0).testBit 11 then patchCounter else imageCounter

/-- The advance of a counter from its value to a target above it (R389). -/
def Dev.rollTo (d : Dev) (otp : List (Nat × Option Word)) (base target : Nat) : Roll :=
  let v := d.rollbackValue otp base
  { base := base, bit := d.freeBit otp base v, left := target - v }

/-- ROLL_ADV. No bit from the value on that reads 0: as when the advance comes to that end under way (log entry 36). -/
def Dev.svcRollAdv (d : Dev) (otp : List (Nat × Option Word)) : Dev :=
  let x := d.arg 0
  let t := x % 2048
  let v := d.rollbackValue otp d.argCounter
  if 4096 ≤ x ∨ 1280 < t then d.mbEnd 7 Mb.badArg 0
  else if t ≤ v then d.mbEnd 7 Mb.ok 0 (wordN v)
  else
    let r := d.rollTo otp d.argCounter t
    if d.windowOpen && decide (1280 ≤ r.bit) then d.mbEnd 7 Mb.verify 0 0 (wordN (d.argCounter + 31))
    else d.mbRun 7 [] (some r)

/-- PATCH. Its format is not given: log entry 27. -/
def Dev.svcPatch (d : Dev) (otp : List (Nat × Option Word)) : Dev :=
  if 32 ≤ d.arg 0 ∨ 2 ^ 18 ≤ d.arg 1 then d.mbEnd 8 Mb.badArg 0
  else if d.lockBit 4 then d.mbEnd 8 Mb.locked 0
  else if (List.range 8).any fun i => d.wordState otp (0xE8 + i) != .good then (d.mbEnd 8 Mb.sig 0).raise 123
  else
    let v := Config.patchVerdict d.free
    let d := d.tick1
    match v.1.val with
    | 0 => (d.put F.WDN_STAT_PATCH 0 v.2.toNat).mbEnd 8 Mb.ok 0 (wordN v.2.toNat)
    | 1 => (d.mbEnd 8 Mb.sig 0).raise 123
    | _ => (d.mbEnd 8 Mb.rollback 0).raise 123

/-- The warden refuses an engine-local reset (R198). -/
def Dev.resetBarred (d : Dev) (e : Nat) : Bool :=
  let inUse := fun (k : Nat) => d.cst k != .safe
  d.fenced e ||
    (if e < 8 then (match d.boundAxis e with
      | some k => inUse k
      | none => false)
    else (decide (d.holds e < 8) && inUse (d.holds e)) || ((d.eng e).run.live && (d.eng e).run.kind == .takeover))

/-- An engine-local reset (R197): the run ends, registers, CONSEC and ENG_STAT but for DECC and FENCED are cleared, memories and
duties stand. The axis shows again from the next run on (log entry 70). -/
def Dev.resetEngine (d : Dev) (e : Nat) : Dev :=
  let old := d.reg (F.ENG_STAT.at_ e)
  let d := if (d.eng e).run.live then d.closeRun e .reset else d
  let d := if d.patrol.open_.any fun c => c.res == e then d.noVerdict e else d
  let d := d.cutBurst e
  let d := d.modRun e fun r => { frame := r.frame, prog := r.prog, axis := r.axis, ended := .reset }
  let d := d.setReg (F.ENG_STAT.at_ e) (old &&& fmask 11 1)
  let d := d.put F.ENG_STAT_STATE e (if d.fenced e then 3 else 0)
  let d := d.put F.ENG_OVR_CONSEC e 0
  match d.servedBy e with
  | some k => d.modAxis k fun a => { a with lastCl := none }
  | none => d

/-- ENG_RESET. -/
def Dev.svcEngReset (d : Dev) : Dev :=
  let e := d.arg 0
  if 10 ≤ e then d.mbEnd 9 Mb.badArg 0
  else if d.resetBarred e then d.mbEnd 9 Mb.state 0
  else ((d.resetEngine e).settle).mbEnd 9 Mb.ok 0

/-- A service starts. -/
def Dev.serve (d : Dev) (otp : List (Nat × Option Word)) (code : Nat) : Dev :=
  match code with
  | 2 => d.svcOtpRead otp
  | 3 => d.svcOtpProg otp
  | 4 => d.svcKeyProg otp
  | 5 => d.svcRevoke otp
  | 6 => d.svcLock otp
  | 7 => d.svcRollAdv otp
  | 8 => d.svcPatch otp
  | 9 => d.svcEngReset
  | _ => d.mbEnd code Mb.badCode 0

/-- A write of WDN_MBCMD with GO = 1, refused while a service is BUSY; a service that arrives during the warden's own
advance waits for its end (R400). -/
def Dev.mailboxGo (d : Dev) (otp : List (Nat × Option Word)) (code : Nat) : Option Dev :=
  if d.get F.WDN_MBSTAT_STATE = 1 then none
  else
    let d := (d.put F.WDN_MBCMD_CODE 0 code).put F.WDN_MBSTAT_STATE 0 1
    some (if d.wdn.svc.isSome then d.modWdn fun w => { w with waiting := some code } else d.serve otp code)

/-! ### Programming (R389, R398, R399) -/

/-- The counters that registers show. -/
def Dev.showCounters (d : Dev) (otp : List (Nat × Option Word)) : Dev :=
  let v := d.rollbackValue otp imageCounter
  ((d.put F.SNT_RBC_IMG 0 v).put F.SNT_RBC_PATCH 0 (d.rollbackValue otp patchCounter)).put F.SYS_IMGSTAT_OTPCNT 0 v

/-- RES0 of a programming service that completes. -/
def Dev.svcResult (d : Dev) (otp : List (Nat × Option Word)) (code : Nat) : Word :=
  if code = 3 then (otpWord otp (d.arg 0)).getD 0
  else if code = 4 then (otpWord otp (0x184 + 5 * d.arg 0)).getD 0
  else if code = 7 then wordN (d.rollbackValue otp d.argCounter)
  else 0

/-! ### The warden's own advance (R56) -/

/-- The sealed image asks for an advance that is not complete. -/
def Dev.wantsAdvance (d : Dev) (otp : List (Nat × Option Word)) : Bool :=
  d.sys.sealed && d.img.cur.advance && decide (d.rollbackValue otp imageCounter < d.img.cur.rollback)

/-- ROLLBACK_ADVANCE: the advance starts after the seal, or is tried again; one that arrives while a host service is under
way waits for its end (R400). -/
def Dev.ownAdvance (d : Dev) (otp : List (Nat × Option Word)) : Dev :=
  if !d.wardenUp || !d.wantsAdvance otp then d
  else if d.wdn.svc.isSome then d.modWdn fun w => { w with advWaits := w.advWaits || w.svc.any fun v => !v.own }
  else if !d.windowOpen then d.putB F.SYS_IMGSTAT_ADV_PENDING 0 true
  else
    let r := d.rollTo otp imageCounter d.img.cur.rollback
    if 1280 ≤ r.bit then d.putB F.SYS_IMGSTAT_ADV_PENDING 0 true
    else (d.putB F.SNT_STAT_PROG 0 true).modWdn fun w => { w with svc := some { code := 7, roll := some r, own := true } }

/-- The service under way is over, and the service that waited for it starts: a host service for the warden's own advance, or
the other way round (R400). -/
def Dev.svcOver (d : Dev) (otp : List (Nat × Option Word)) (v : Svc) (result : Nat) (res0 res1 : Word) : Dev :=
  let waiting := d.wdn.waiting
  let adv := d.wdn.advWaits
  let d := (d.putB F.SNT_STAT_PROG 0 false).modWdn fun w => { w with svc := none, waiting := none, advWaits := false }
  if v.own then
    let d := d.putB F.SYS_IMGSTAT_ADV_PENDING 0 (result != Mb.ok)
    match waiting with
    | some code => if d.wardenUp then d.serve otp code else d
    | none => d
  else
    let d := d.mbEnd v.code result v.words res0 res1
    if adv then d.ownAdvance otp else d

/-- A service completes with its own result; an abort is late (R399, R403). -/
def Dev.svcComplete (d : Dev) (otp : List (Nat × Option Word)) (v : Svc) : Dev :=
  let d := if v.code = 6 ∧ !v.own then (d.putBit F.SNT_LOCK_LOCK 0 (d.arg 0 % 8) true).showKeys otp else d
  let d := if v.stop = Mb.aborted then d.putB F.WDN_MBSTAT_ABTLATE 0 true else d
  d.svcOver otp v Mb.ok (d.svcResult otp v.code) 0

/-- A service at a word boundary goes on, or ends for the reason that stands. -/
def Dev.svcNext (d : Dev) (otp : List (Nat × Option Word)) (v : Svc) : Dev :=
  if v.stop ≠ 0 then d.svcOver otp v v.stop 0 0 else d.modWdn fun w => { w with svc := some v }

/-- A word verified, or spent. -/
def Dev.fixedDone (d : Dev) (otp : List (Nat × Option Word)) (v : Svc) (ok : Bool) : Dev × List (Nat × Option Word) :=
  match v.todo with
  | [] => (d, otp)
  | (a, w) :: rest =>
    if ok then
      let otp := otpSet otp a w
      let d := d.showKeys otp
      let v := { v with todo := rest, words := v.words + 1 }
      (if rest.isEmpty then d.svcComplete otp v else d.svcNext otp v, otp)
    else
      let otp := otpSet otp a (wordN d.freeNat)
      let d := ((d.tick1.modWdn fun w => { w with marginal := w.marginal ++ [a] }).showKeys otp).raise 120
      (d.svcOver otp v Mb.verify 0 (wordN a), otp)

/-- The word that holds the bit under way. -/
def Roll.addr (r : Roll) : Nat := r.base + r.bit / 40

/-- An advance after the verification of its bit. -/
def Dev.rollAfter (d : Dev) (otp : List (Nat × Option Word)) (r : Roll) (ok : Bool) : Roll :=
  if ok then { base := r.base, bit := d.freeBit otp r.base (r.bit + 1), left := r.left - 1, last := some r.addr }
  else { base := r.base, bit := d.freeBit otp r.base (r.bit + 1), left := r.left, last := r.last }

/-- An advance completes, finds no bit left, or goes on. -/
def Dev.rollNext (d : Dev) (otp : List (Nat × Option Word)) (v : Svc) (r : Roll) (a : Nat) : Dev :=
  if r.left = 0 then d.svcComplete otp v
  else if r.bit < 1280 then d.svcNext otp { v with roll := some r }
  else d.svcOver otp v Mb.verify 0 (wordN a)

/-- A bit of a rollback counter verified, or left as it is (R389). -/
def Dev.rollDone (d : Dev) (otp : List (Nat × Option Word)) (v : Svc) (r : Roll) (ok : Bool) :
    Dev × List (Nat × Option Word) :=
  let a := r.addr
  let seen := wordN (setBit (d.rollWord otp a).toNat (r.bit % 40) true)
  let stored := wordN (setBit ((otpWord otp a).getD 0).toNat (r.bit % 40) true)
  let otp := if ok then otpSet otp a stored else otp
  let d := if ok then d.modWdn fun w => { w with roll := w.roll.map fun p => if p.1 = a then (a, seen) else p } else d
  let v := if ok && r.last != some a then { v with words := v.words + 1 } else v
  let d := d.showCounters otp
  (d.rollNext otp v (d.rollAfter otp r ok) a, otp)

/-- The pulse under way has ended and its word has been verified. -/
def Dev.wordDone (d : Dev) (otp : List (Nat × Option Word)) (ok : Bool) : Dev × List (Nat × Option Word) :=
  match d.wdn.svc with
  | none => (d, otp)
  | some v => match v.roll with
    | none => d.fixedDone otp v ok
    | some r => d.rollDone otp v r ok

/-- A write of WDN_MBCMD with ABORT = 1 (R403). A warden that a mismatch has stopped takes none (R383). -/
def Dev.mailboxAbort (d : Dev) : Dev :=
  if d.wdn.stopped then d else
  let late := d.putB F.WDN_MBSTAT_ABTLATE 0 true
  match d.wdn.waiting with
  | some code =>
    if programs code then (d.modWdn fun w => { w with waiting := none }).mbEnd code Mb.aborted 0 else late
  | none => match d.wdn.svc with
    | some v => if v.own then late else d.stopSvc Mb.aborted
    | none => late

/-- A lock bit refuses the service under way (R395). -/
def Dev.lockStops (d : Dev) (new : Nat) : Bool :=
  match d.wdn.svc with
  | none => false
  | some v =>
    !v.own && (((v.code == 3 || v.code == 4 || v.code == 6) && new.testBit 4) || (v.code == 4 && new.testBit 2) ||
      (v.code == 3 && new.testBit (if isDigestWord (d.arg 0) then 1 else 3)))

/-- Lock bits set for the session. -/
def Dev.lockSet (d : Dev) (otp : List (Nat × Option Word)) (bits : Nat) : Dev :=
  let old := d.get F.SNT_LOCK_LOCK
  let new := (bits % 32) &&& (31 - old)
  let d := (d.put F.SNT_LOCK_LOCK 0 (old ||| bits % 32)).showKeys otp
  if d.lockStops new then d.stopSvc Mb.locked else d

/-! ### Events routed to the warden (R405) -/

/-- WARDEN_EVENT. -/
def Dev.wardenEvent (d : Dev) (n : Nat) : Dev :=
  if !d.wardenUp || !d.bit F.EVT_WRT (n / 32) (n % 32) || !d.bit F.EVT_STAT (n / 32) (n % 32) then d
  else
    let axes := if n < 64 then [n / 8] else bitsOf 8 (d.get F.WDN_ESCMASK_AXES)
    let d := d.each axes fun k d => if d.cst k = .run then d.requestStop k else d
    let d := d.each axes fun k d => d.putBit F.WDN_ESC_BLOCK 0 k true
    ((d.put F.WDN_ESC_LASTEV 0 n).bump F.WDN_ESC_COUNT 0).putBit F.EVT_STAT (n / 32) (n % 32) false

/-! ### Meanings -/

/-- A GO row of the mailbox: a refused write shows in the host port's status. -/
def State.mailbox (s : State) (code : Nat) : Host.Outcome State Fault Refusal :=
  s.lift fun d => if d.hostUp then d.hostWrite F.WDN_MBCMD.addr (d.mailboxGo s.otp code) else d

/-- OTP_READ (R401). -/
def execOtpRead (s : State) : Host.Outcome State Fault Refusal := s.mailbox 2
/-- OTP_PROG (R401). -/
def execOtpProg (s : State) : Host.Outcome State Fault Refusal := s.mailbox 3
/-- KEY_PROG (R401). -/
def execKeyProg (s : State) : Host.Outcome State Fault Refusal := s.mailbox 4
/-- REVOKE (R401). -/
def execRevoke (s : State) : Host.Outcome State Fault Refusal := s.mailbox 5
/-- LOCK (R401). -/
def execLock (s : State) : Host.Outcome State Fault Refusal := s.mailbox 6
/-- ROLL_ADV (R401). -/
def execRollAdv (s : State) : Host.Outcome State Fault Refusal := s.mailbox 7
/-- PATCH (R401). -/
def execPatch (s : State) : Host.Outcome State Fault Refusal := s.mailbox 8
/-- ENG_RESET (R198). -/
def execEngReset (s : State) : Host.Outcome State Fault Refusal := s.mailbox 9
/-- MAILBOX_ABORT (R403). -/
def execMailboxAbort (s : State) : Host.Outcome State Fault Refusal :=
  s.lift fun d => if d.wardenUp then d.mailboxAbort else d
/-- PROGRAMMING_WINDOW_CHANGE (R397). -/
def execProgrammingWindowChange (vioOk tjOk : Bool) (s : State) : Host.Outcome State Fault Refusal :=
  s.lift fun d => if d.awake then d.windowChange vioOk tjOk else d
/-- SNT_LOCK_SET (R395). -/
def execSntLockSet (bits : BitVec 5) (s : State) : Host.Outcome State Fault Refusal :=
  s.lift fun d => if d.hostUp then d.lockSet s.otp bits.toNat else d
/-- ROLLBACK_ADVANCE (R56). -/
def execRollbackAdvance (s : State) : Host.Outcome State Fault Refusal := s.lift fun d => d.ownAdvance s.otp
/-- WARDEN_EVENT (R405). -/
def execWardenEvent (ev : Fin 128) (s : State) : Host.Outcome State Fault Refusal := s.lift fun d => d.wardenEvent ev

end Sys2Proof.Machine
end

