-- ==== Sys2Proof/Machine/Access.lean ====
section
/-! DEFINITION. A write of a register by any master (R7 to R10, R467): judged field by field, refused or taken whole, and
the actions that some writes have. -/

namespace Sys2Proof.Machine

/-! ### Counters cleared by a CLR bit -/

/-- The registers with a CLR bit in [39]: their number and the fields that the bit clears. -/
def clearRows : List (Fld × Nat × List Fld) :=
  [(F.GEY_OVR, 1, [F.GEY_OVR_LATE, F.GEY_OVR_DROP, F.GEY_OVR_LSLOT]),
   (F.LEG_VSTAT, 24, [F.LEG_VSTAT_DTFIX, F.LEG_VSTAT_XLOCK]),
   (F.LEG_FLT, 24, [F.LEG_FLT_BLKCNT, F.LEG_FLT_BSTINH]),
   (F.BRK_STAT, 4, [F.BRK_STAT_CLAMPS]),
   (F.BRK_FLT, 4, [F.BRK_FLT_SCCNT]),
   (F.VNT_STAT, 1, [F.VNT_STAT_PKTLOST]),
   (F.VNT_AFLT, 8, [F.VNT_AFLT_STOPS]),
   (F.ADC_STAT, 16, [F.ADC_STAT_OVRCNT]),
   (F.FBK_CNT, 8, [F.FBK_CNT_OVSCNT, F.FBK_CNT_LOSSCNT]),
   (F.ENG_RUN, 10, [F.ENG_RUN_MAX]),
   (F.ENG_OVR, 10, [F.ENG_OVR_COUNT]),
   (F.ENG_ECC, 10, [F.ENG_ECC_SCNT])] ++
  [(F.AX_CCNT, 8, [F.AX_CCNT_VCNT, F.AX_CCNT_ICNT, F.AX_CCNT_MCNT]),
   (F.ENG_PCNT, 1, [F.ENG_PCNT_MATCH, F.ENG_PCNT_SKIP]),
   (F.JNL_CNT, 1, [F.JNL_CNT_ACC, F.JNL_CNT_REF]),
   (F.JNL_CNT2, 1, [F.JNL_CNT2_DUP, F.JNL_CNT2_DISC]),
   (F.JNL_AFIFO, 1, [F.JNL_AFIFO_LOST]),
   (F.CON_CUTOFF, 1, [F.CON_CUTOFF_COUNT]),
   (F.CON_RSTAT, 1, [F.CON_RSTAT_COUNT]),
   (F.CON_ECC, 1, [F.CON_ECC_SCNT, F.CON_ECC_UCNT]),
   (F.CON_CNT, 1, [F.CON_CNT_QFULL, F.CON_CNT_DENY]),
   (F.CAN_CNT, 4, [F.CAN_CNT_OVS, F.CAN_CNT_IDCOL, F.CAN_CNT_RXLOST]),
   (F.CAN_CNT2, 4, [F.CAN_CNT2_PRBLOST, F.CAN_CNT2_RPLLOST, F.CAN_CNT2_RMT]),
   (F.HST_CNT, 1, [F.HST_CNT_CRCCNT, F.HST_CNT_FRMCNT]),
   (F.DIE_DIS, 1, [F.DIE_DIS_COUNT])]

/-- The instance of a register that an address names. -/
def instOf (f : Fld) (n a : Nat) : Option Nat := (List.range n).find? fun i => f.at_ i == a

/-- A CLR bit clears its counters; in VNT_VDRV and THM_TEMP it sets the extremes to the present value. -/
def Dev.clearBit (d : Dev) (a : Nat) : Dev :=
  if a = F.VNT_VDRV.addr then d.put F.VNT_VDRV_MIN 0 (d.get F.VNT_VDRV_VDRV)
  else if a = F.THM_TEMP.addr then
    (d.put F.THM_TEMP_MIN 0 (d.get F.THM_TEMP_TEMP)).put F.THM_TEMP_MAX 0 (d.get F.THM_TEMP_TEMP)
  else clearRows.foldl (fun d r => match instOf r.1 r.2.1 a with
    | none => d
    | some i => r.2.2.foldl (fun d f => d.put f i 0) d) d

/-! ### Writes with an action -/

/-- EVT_STATm: the bits of warden-routed events act as read-only but for the warden (R375). -/
def Dev.writeEvents (d : Dev) (m : Master) (n : Nat) (w : Word) : Dev :=
  let routed := if m = .warden then 0 else d.get F.EVT_WRT n
  let hit := (List.range 32).foldl (fun x i => setBit x i (x.testBit i && !routed.testBit i)) (fget w 0 32)
  d.put F.EVT_STAT n (d.get F.EVT_STAT n - (d.get F.EVT_STAT n &&& hit))

/-- WDN_MBCMD: GO starts the service that CODE names, refused while one is BUSY; ABORT comes second (R400, R403). -/
def Dev.writeMailbox (d : Dev) (otp : List (Nat × Option Word)) (w : Word) : Option Dev :=
  let abort := fun (x : Dev) => if w.getLsbD 9 then x.mailboxAbort else x
  if w.getLsbD 8 then (d.mailboxGo otp (fget w 0 8)).map abort
  else some (abort (d.put F.WDN_MBCMD_CODE 0 (fget w 0 8)))

/-- CAN_FCODE and CAN_FMASK: SEAL fields of the filter that CAN_FSEL names (R349). -/
def Dev.writeFilter (d : Dev) (c : Nat) (mask : Bool) (w : Word) : Option Dev :=
  let i := d.get F.CAN_FSEL_INDEX c
  let old := uget (d.ctl c).filters i
  let x := if mask then (old.1, w &&& 0x1FFFFFFF#40) else (w &&& 0x1FFFFFFFF#40, old.2)
  if d.sys.sealed ∧ x ≠ old then none else some (d.modCtl c fun u => { u with filters := uset u.filters i x })

/-- HALT is written: whether another node's frame is in progress is a free value where no command has shown it (log entry 32). -/
def Dev.haltWritten (d : Dev) (c : Nat) (on : Bool) : Dev := (d.canHalt c on (d.freeNat.testBit 40)).tick1

/-- CAN_CTL: HALT and BOREC act (R357, R358); a refused BOREC refuses the write. -/
def Dev.writeCanCtl (d : Dev) (c : Nat) (w x : Word) : Option Dev :=
  let was := d.get F.CAN_CTL_HALT c
  let now := fget x F.CAN_CTL_HALT.lo 1
  let d := (d.setReg (F.CAN_CTL.at_ c) x).put F.CAN_CTL_HALT c was
  let d := if now = was then d else d.haltWritten c (now == 1)
  if w.getLsbD F.CAN_CTL_BOREC.lo then d.canBorec c else some d

/-- A register of a CAN block. -/
def Dev.writeCan (d : Dev) (c off : Nat) (w x : Word) : Option Dev :=
  if off = 0x00 then d.writeCanCtl c w x
  else if off = 0x06 then d.txReqWrite c w
  else if off = 0x0B then d.writeFilter c false w
  else if off = 0x0C then d.writeFilter c true w
  else if 0x10 ≤ off ∧ off < 0x40 then d.txWrite c off w
  else if off = F.CAN_DMAP.addr - 0x1C00 then some ((d.setReg (0x1C00 + 128 * c + off) x).dmaRequest c)
  else some (d.setReg (0x1C00 + 128 * c + off) x)

/-- ADC_CAL: FREEZE and RESTART (R140). -/
def Dev.writeCal (d : Dev) (b : Nat) (w : Word) : Dev :=
  let d := d.calFreeze b (w.getLsbD 0)
  if w.getLsbD 1 then d.calRestart b else d

/-- The action of a write that has been judged: `w` as written, `x` as the register takes it. -/
def Dev.act (d : Dev) (otp : List (Nat × Option Word)) (m : Master) (a : Nat) (w x : Word) : Option Dev :=
  if a = F.SYS_IMGPUSH.addr then d.imgPush otp w
  else if a = F.GEY_COMMIT.addr then if d.sys.sealed then d.writeCommit w else if w.getLsbD 0 && w.getLsbD 1 then none else some d
  else if 0x0110 ≤ a ∧ a < 0x0130 then d.writeSlot (a - 0x0110) w
  else if 0x0200 ≤ a ∧ a < 0x0204 then some (d.writeEvents m (a - 0x0200) w)
  else if a = F.VNT_FCLR.addr then some (d.fclrGo w)
  else if 0x0C00 ≤ a ∧ a < 0x1000 ∧ a % 64 = 0x12 then some (d.writeCal ((a - 0x0C00) / 64) w)
  else if 0x1000 ≤ a ∧ a < 0x1800 ∧ a % 8 = 5 then
    let n := (a - 0x1000) / 8
    some ((d.setReg a (regTake a x)).tripCleared n (d.tripped n))
  else if 0x1860 ≤ a ∧ a < 0x18C0 then d.corDiag (a - 0x1860) w
  else if 0x1900 ≤ a ∧ a < 0x1A00 ∧ a % 32 = 3 then some (if w.getLsbD 0 then d.rearm ((a - 0x1900) / 32) else d)
  else if 0x1C00 ≤ a ∧ a < 0x1E00 then d.writeCan ((a - 0x1C00) / 128) (a % 128) w x
  else if 0x1E40 ≤ a ∧ a < 0x1E80 then none
  else if a = F.WDN_MBCMD.addr then d.writeMailbox otp w
  else if 0x2004 ≤ a ∧ a < 0x200C then if d.get F.WDN_MBSTAT_STATE = 1 then none else some (d.setReg a x)
  else if a = F.SNT_LOCK.addr then some (d.lockSet otp (fget w 0 5))
  else if a = F.CON_PRIO.addr then some ((d.notePrio (d.reg a)).setReg a x)
  else some (d.setReg a (regTake a x))

/-- What follows a write that has been taken: CLR bits, the mismatch record, an engine-local reset. -/
def Dev.afterWrite (d : Dev) (a : Nat) (w : Word) : Dev :=
  let d := if w.getLsbD 39 then d.clearBit a else d
  let d := if a = F.ENG_PSTAT.addr ∧ w.getLsbD 8 then d.setReg F.ENG_PMIS.addr 0 else d
  match instOf F.ENG_CTL 10 a with
  | some e => if w.getLsbD 0 then (d.resetEngine e).settle else d
  | none => d

/-- A write of a register; `none` when it is refused. Where no register is, the write is discarded. -/
def Dev.writeReg (d : Dev) (otp : List (Nat × Option Word)) (m : Master) (a : Nat) (w : Word) : Option Dev :=
  if (regRow a).isNone then some d
  else match d.judge m a w with
    | none => none
    | some x => (d.act otp m a w x).map fun d => d.afterWrite a w

/-! ### Meanings -/

/-- REGISTER_WRITE (R467): a refused write of the host shows in its port's status, one of another master changes nothing. -/
def execRegisterWrite (m : Master) (addr : BitVec 16) (w : Word) (s : State) : Host.Outcome State Fault Refusal :=
  s.lift fun d =>
    if !d.awake || (m == .host && !d.sys.portUp) then d
    else if m = .host then d.hostWrite addr.toNat (d.writeReg s.otp m addr.toNat w)
    else (d.writeReg s.otp m addr.toNat w).getD d

end Sys2Proof.Machine
end

