-- ==== Sys2Proof/Machine/Tick.lean ====
section
/-! DEFINITION. The Geyser tick (R18): what ends a frame and what opens the next one, in order. -/

namespace Sys2Proof.Machine

/-! ### The end of the frame -/

/-- A slot action that has not started is dropped (R67): a dropped PROG counts as an overrun of its axes. A slot that names
several axes of which some wait starts the others and is late once; when it is dropped, only the axes that did not start
count an overrun. A JOURNAL or CANTX action is never late: the manual names no resource that it needs (DESIGN CHOICE, log
entry 81). -/
def Dev.dropSlot (d : Dev) (s : Nat) : Dev :=
  let w := d.aslot s
  let d := d.slotFault s F.GEY_OVR_DROP
  if slotAction w = 1 then
    d.each (bitsOf 8 (slotMask w)) fun k d =>
      if d.gey.ran.testBit k then d
      else match d.engineOf k with
        | none => d
        | some e => d.countOverrun e k 4 false
  else d

/-- Every slot action of the frame that has not started is dropped, lowest slot first. -/
def Dev.dropSlots (d : Dev) : Dev :=
  d.each ((List.range 32).filter fun s => slotAction (d.aslot s) != 0 && !d.gey.started.testBit s) fun s d => d.dropSlot s

/-- The frame is over: dropped actions, comparisons without a verdict, checkpoints that were not written. -/
def Dev.frameEnd (d : Dev) : Dev :=
  if !d.clk.ticked then d
  else
    let d := d.dropSlots.patrolEnd
    d.each (List.range 10) fun e d => if (d.eng e).ckptDue then d.modEng e fun u => { u with ckptDue := false } else d

/-! ### The new frame -/

/-- The clock opens the frame: FCNT counts, the first tick opens frame 0; no slot has started (R62, R75). -/
def Dev.openFrame (d : Dev) : Dev :=
  let f := if d.clk.ticked then (d.get F.GEY_FCNT 0 + 1) % 2 ^ 40 else 0
  let old := d.len
  let d := { d with clk := { d.clk with frameStart := d.clk.now, ticked := true } }.put F.GEY_FCNT 0 f
  d.modGey fun g => { g with started := 0, late := 0, ran := 0, prevLen := old, syncAt := some d.clk.now }

/-- The throttle scale s16 (R427, R429). -/
def Dev.throttle (d : Dev) : Nat :=
  let smin := d.get F.THM_SLOPE_SMIN
  if d.flag F.THM_STAT_VALID then
    let ex := (d.getI F.THM_TEMP_TEMP - 8 * (d.get F.THM_LIM_TTHR : Int)).toNat
    clampN smin 65536 (65536 - d.get F.THM_SLOPE_KS * ex / 8)
  else smin

/-- The throttle scale of the tick. -/
def Dev.throttleTick (d : Dev) : Dev :=
  let s := d.throttle
  (d.put F.THM_STAT_S 0 s).modGey fun g => { g with s16 := s }

/-- The LIVE registers of the commutation unit and the sequencer of an axis. -/
def unitLive (k : Nat) : List Nat :=
  [F.AX_COMM.at_ k, F.AX_CTHR.at_ k, F.AX_SCFG.at_ k, F.AX_SRAMP.at_ k, F.AX_SCUR.at_ k, F.AX_CATCH.at_ k, F.AX_SEQT.at_ k]

/-- LIVE registers that units take up at the tick (R142, R250, R273). -/
def Dev.latchLive (d : Dev) : Dev :=
  let t := (List.range 8).foldl (fun t k => (unitLive k).foldl (fun t a => tset regReset t a (d.reg a)) t) d.axLive
  let c := (List.range 96).foldl (fun t i => tset regReset t (0x1800 + i) (d.reg (0x1800 + i))) d.cor
  { d with axLive := t, cor := c }

/-- Held sets and held positions, tagged with the frame that has ended (R18, R147, R149, R167). -/
def Dev.latchHeld (d : Dev) : Dev :=
  let tag := (d.get F.GEY_FCNT 0 + 255) % 256
  let d := d.each (List.range 256) fun n d => d.accTick tag n
  d.each (List.range 8) fun u d => d.fbkTick tag u

/-- The axes: units and sequencers, RUN entries, pending operations, REARM requests of completed runs (R234, R243, R306). -/
def Dev.axesTick (d : Dev) : Dev :=
  let prim := (List.range 8).filter d.primary
  let rearm := prim.filter fun k => match (d.axis k).done with
    | none => false
    | some o => o.fctl
  let others := (List.range 8).filter fun k => !d.primary k
  let d := d.each others fun k d => d.latchState k
  let d := (d.each prim fun k d => d.commTick k).runEntries.opsTick
  let d := d.each prim fun k d => d.latchSeq k
  d.each rearm fun k d => d.rearm (d.topo k).fbk

/-- The leg units and brake leg units (R20, R95). -/
def Dev.legsTick (d : Dev) : Dev :=
  let d := d.each (List.range 4) fun b d => d.brakeTick b
  d.each (List.range 24) fun l d => d.tickCarrier l

/-- The journal: idle ticks of sources, ages of transfers, and entries that are no longer of this frame (R295, R300,
R304). -/
def Journal.tick (j : Journal) : Journal :=
  { j with
    sources := j.sources.map fun p => (p.1, p.2.map fun (x : Source) => { x with idle := x.idle + 1 })
    transfers := j.transfers.map fun t => { t with ticks := t.ticks + 1 }
    entries := j.entries.map fun e => { e with fresh := false } }

/-- The CAN controllers: first tick, the stamp of the tick, and releases without a CANTX slot (R338, R342, R344). -/
def Dev.canTick (d : Dev) : Dev :=
  let d := d.canFirstTick
  let d := d.each (List.range 4) fun c d => d.setReg (F.CAN_TTICK.at_ c) (wordN d.timeBase)
  d.canTickRelease

/-- GEYSER_TICK. It comes at the end of the frame; before the seal no tick occurs. -/
def Dev.tick (d : Dev) : Dev :=
  if !d.awake || !d.sys.sealed then d
  else
    let d := (if d.clk.ticked then (d.at_ d.len).serveLate else d).frameEnd.openFrame
    let d := d.throttleTick.latchLive.latchHeld
    let d := d.each (List.range 16) fun b d => d.bankTick b
    let d := d.swapTick.phaseTick
    let d := d.axesTick.legsTick
    let d := (d.modJnl Journal.tick).patrolTick.freshTick
    d.canTick

/-- GEYSER_TICK (R18). -/
def execGeyserTick (s : State) : Host.Outcome State Fault Refusal := s.lift Dev.tick

end Sys2Proof.Machine
end

