-- ==== Sys2Proof/Machine/Host.lean ====
section
/-! DEFINITION. The host port (chapter 17): frames and their CRC, bursts, responses, the Caldera window and the command
window. -/

namespace Sys2Proof.Machine

/-! ### Frames (R364, R368) -/

/-- The seven bytes of bits [63:8], from bit 63 down. -/
def frameBytes (n : Nat) : List Byte := [56, 48, 40, 32, 24, 16, 8].map fun i => BitVec.ofNat 8 (n >>> i)

/-- The frame carries the right CRC. -/
def frameOk (n : Nat) : Bool := crc8 (frameBytes n) == n % 256

/-- A frame in its parts. -/
def hframe (n : Nat) : HFrame :=
  { rd := n.testBit 63, addr := (n >>> 48) % 2 ^ 15, data := wordN ((n >>> 8) % 2 ^ 40) }

/-- A response frame: AECHO, STATUS, DATA and CRC. -/
def respFrame (echo status : Nat) (data : Word) : BitVec 64 :=
  let n := (echo % 256) * 2 ^ 56 + status * 2 ^ 48 + data.toNat * 2 ^ 8
  BitVec.ofNat 64 (n + crc8 (frameBytes n))

namespace Hst
def ok : Nat := 0x00
def refused : Nat := 0x01
def notReady : Nat := 0x02
def dataErr : Nat := 0x03
def unmapped : Nat := 0x04
def crcErr : Nat := 0x08
def seqErr : Nat := 0x09
def none : Nat := 0x0F
end Hst

/-- The response before any frame has been answered since reset. -/
def noneFrame : BitVec 64 := respFrame 0 Hst.none 0

/-! ### Answers (R369) -/

/-- A frame is answered; a status other than OK and NONE writes LSTAT and LADDR. -/
def Dev.answer (d : Dev) (f : HFrame) (status : Nat) (data : Word) : Dev :=
  let d := d.modHost fun h => { h with resp := some (respFrame f.addr status data) }
  if status = Hst.ok then d else (d.put F.HST_STAT_LSTAT 0 status).put F.HST_STAT_LADDR 0 f.addr

/-- A port error: its flag, its count and EV127; a command batch of this burst is spoiled (R365 to R367, R372). -/
def Dev.portError (d : Dev) (flag count : Fld) : Dev :=
  (((d.putB flag 0 true).bump count 0).raise 127).modHost fun h => { h with spoiled := true }

/-- The Caldera word of a window address on a page (R322). -/
def windowAddr (page a : Nat) : Nat := page * 16384 + (a - 0x4000)

/-- A window access that is still under way is withdrawn (R370). -/
def Dev.withdrawWindow (d : Dev) : Dev :=
  match d.host.window with
  | none => d
  | some (f, page) =>
    let d := d.leaveQueue (bankOf (windowAddr page f.addr)) fun x => x.req == 12
    (d.modHost fun h => { h with window := none }).answer f Hst.notReady (if f.rd then 0 else f.data)

/-! ### Performing a frame (R369 to R372) -/

/-- What a read of a register leaves: its DATA in HST_LAST, and what it removes, locks or releases (R371). -/
def Dev.readActs (d : Dev) (a : Nat) : Dev :=
  let d := if a = F.HST_LAST.addr ∨ a = F.HST_NOP.addr then d else d.setReg F.HST_LAST.addr (d.readReg a)
  if a = F.JNL_ACK.addr then d.ackRead
  else if 0x1C00 ≤ a ∧ a < 0x1E00 ∧ 0x40 ≤ a % 128 ∧ a % 128 < 0x60 then d.canWindow ((a - 0x1C00) / 128) (a % 128 - 0x40)
  else d

/-- A read of a register, with what it removes or releases. -/
def Dev.performRead (d : Dev) (f : HFrame) : Dev :=
  let a := f.addr
  if 0x1E40 ≤ a ∧ a < 0x1E80 then (d.setReg F.HST_LAST.addr 0).answer f Hst.ok 0
  else if (regRow a).isNone then d.answer f Hst.unmapped 0
  else (d.readActs a).answer f Hst.ok (d.readReg a)

/-- A write of a register, or of a word of a command batch. -/
def Dev.performWrite (d : Dev) (otp : List (Nat × Option Word)) (f : HFrame) : Dev :=
  let a := f.addr
  if 0x1E40 ≤ a ∧ a < 0x1E80 then
    if d.host.jnl then (d.modHost fun h => { h with words := h.words ++ [f.data] }).answer f Hst.ok f.data
    else d.answer f Hst.refused f.data
  else
    let d := if d.host.jnl then d.modHost fun h => { h with spoiled := true } else d
    if (regRow a).isNone then d.answer f Hst.unmapped f.data
    else match d.writeReg otp .host a f.data with
      | none => d.answer f Hst.refused f.data
      | some d => d.answer f Hst.ok f.data

/-- A window access is requested: refused, not ready during the initialisation, or under way (R320, R322, R373). -/
def Dev.performWindow (d : Dev) (f : HFrame) : Dev :=
  let page := d.get F.SYS_CWPAGE_PAGE
  let data := if f.rd then 0 else f.data
  if d.sys.calInit then d.answer f Hst.notReady data
  else if !f.rd && !d.hostMayWrite (bankOf (windowAddr page f.addr)) then d.conDeny.answer f Hst.refused data
  else (d.bulkRequest 12 (windowAddr page f.addr) 1).modHost fun h => { h with window := some (f, page) }

/-- A frame that has passed its checks. -/
def Dev.perform (d : Dev) (otp : List (Nat × Option Word)) (f : HFrame) : Dev :=
  if 0x4000 ≤ f.addr then d.performWindow f
  else if f.rd then d.performRead f
  else d.performWrite otp f

/-! ### Bursts (R366) -/

/-- The address of frame `i` of a burst. -/
def burstAddr (start i : Nat) : Nat :=
  if 0x4000 ≤ start then 0x4000 + (start - 0x4000 + i) % 0x4000 else (start + i) % 0x4000

/-- A frame in its burst: the first one opens it. -/
def Dev.joinBurst (d : Dev) (f : HFrame) : Dev := match d.host.burst with
  | none => d.modHost fun h => { h with
      burst := some (f.rd, f.addr, 1), seqErr := false, words := [], spoiled := false, jnl := !f.rd && f.addr == 0x1E40 }
  | some (rd, a, n) => d.modHost fun h => { h with burst := some (rd, a, n + 1) }

/-- The frame breaks the burst's sequence: another direction, or another address than the burst has reached. -/
def Dev.outOfSeq (d : Dev) (f : HFrame) : Bool := match d.host.burst with
  | none => false
  | some (rd, a, n) => f.rd != rd || f.addr != burstAddr a n

/-- HOST_FRAME (R364 to R372). A frame that the port cannot take, because a reset has met it or the port is down, leaves its
burst dead (R373; log entry 83). -/
def Dev.hostFrame (d : Dev) (otp : List (Nat × Option Word)) (bits : BitVec 64) : Dev :=
  if !d.hostUp then d.modHost fun h => { h with dead := true }
  else if d.host.dead then d
  else
    let f := hframe bits.toNat
    let d := d.withdrawWindow
    let d := d.modHost fun h => { h with shifted := some (h.resp.getD noneFrame), resp := none }
    let bad := d.outOfSeq f
    let d := d.joinBurst f
    if d.host.seqErr then (d.portError F.HST_STAT_FRME F.HST_CNT_FRMCNT).answer f Hst.seqErr 0
    else if !frameOk bits.toNat then (d.portError F.HST_STAT_CRCE F.HST_CNT_CRCCNT).answer f Hst.crcErr 0
    else if bad then
      ((d.portError F.HST_STAT_FRME F.HST_CNT_FRMCNT).modHost fun h => { h with seqErr := true }).answer f Hst.seqErr 0
    else d.perform otp f

/-- HOST_BURST_END: HCS_N rises (R367, R372). -/
def Dev.burstEnd (d : Dev) (otp : List (Nat × Option Word)) (partialBits : Nat) : Dev :=
  let close := fun (d : Dev) => d.modHost fun h =>
    { h with burst := none, seqErr := false, dead := false, words := [], jnl := false, spoiled := false }
  if !d.hostUp || d.host.dead then close d
  else
    let d := if partialBits = 0 then d else d.portError F.HST_STAT_FRME F.HST_CNT_FRMCNT
    let h := d.host
    let d := close d
    if h.burst.isSome && h.jnl then d.hostBatch otp h.words h.spoiled else d

/-- CALDERA_WINDOW_ACCESS: the bank serves the access that is under way, if it wins its arbitration, or the port withdraws it
(R322 to R326, R370). -/
def Dev.windowDone (d : Dev) (done : Bool) (ecc : Ecc) : Dev :=
  match d.host.window with
  | none => d
  | some (f, page) =>
    let a := windowAddr page f.addr
    if !done then d.withdrawWindow
    else
      let x := d.granted (bankOf a) fun r => r.req == 12
      match x.2 with
      | none => d
      | some r =>
        let d := (x.1.burstEnds (bankOf a) r).modHost fun h => { h with window := none }
        if f.rd then
          match d.conRead a ecc with
          | (d, some v) => (d.setReg F.HST_LAST.addr v).answer f Hst.ok v
          | (d, none) => d.answer f Hst.dataErr 0
        else (d.conWrite a f.data).answer f Hst.ok f.data

/-- The hold limit of a window access: it ends with an error tag, and a write is not performed (R331). -/
def Dev.windowCutOff (d : Dev) : Dev :=
  match d.host.window with
  | none => d
  | some (f, page) =>
    let b := bankOf (windowAddr page f.addr)
    let x := d.granted b fun r => r.req == 12
    match x.2 with
    | none => d
    | some r => ((x.1.grantCut b 12 r).modHost fun h => { h with window := none }).answer f Hst.dataErr (if f.rd then 0 else f.data)

/-- The hold limit of a CAN DMA burst: it ends with an error tag (R331, R355). -/
def Dev.dmaCutOff (d : Dev) (c : Nat) : Dev :=
  let b := bankOf (d.dmaAddr c)
  let x := d.granted b fun r => r.req == 13 + c
  match x.2 with
  | none => d
  | some r => (x.1.grantCut b (13 + c) r).dmaFail c

/-- HOLD_CUTOFF: the grant of a requester has been held for longer than HOLDMAX cycles (R331). -/
def Dev.holdCutoff (d : Dev) (q : Nat) : Dev :=
  if q < 10 then (if (d.eng q).burst.isSome then d.burstCutOff q else d.farCutOff q)
  else if q = 10 then d.jnlCutOff
  else if q = 11 then d.cutOff 11
  else if q = 12 then d.windowCutOff
  else d.dmaCutOff (q - 13)

/-! ### Meanings -/

/-- HOST_FRAME (R364). -/
def execHostFrame (bits : BitVec 64) (s : State) : Host.Outcome State Fault Refusal :=
  s.liftOtp fun otp d => d.hostFrame otp bits
/-- HOST_BURST_END (R366). -/
def execHostBurstEnd (partialBits : Fin 64) (s : State) : Host.Outcome State Fault Refusal :=
  s.liftOtp fun otp d => d.burstEnd otp partialBits
/-- CALDERA_WINDOW_ACCESS (R322). -/
def execCalderaWindowAccess (done : Bool) (ecc : Ecc) (s : State) : Host.Outcome State Fault Refusal :=
  s.lift fun d => d.windowDone done ecc
/-- JNL_ACK_READ (R293, R371). -/
def execJnlAckRead (s : State) : Host.Outcome State Fault Refusal :=
  s.lift fun d => if d.hostUp then d.readActs F.JNL_ACK.addr else d
/-- CAN_WINDOW_READ (R352, R371): a read of word `off` of the PRB window, or of word `off` − 16 of the FIFO window. -/
def execCanWindowRead (c : Fin 4) (off : Fin 32) (s : State) : Host.Outcome State Fault Refusal :=
  s.lift fun d => if d.hostUp then d.readActs (F.CAN_PRB.at_ c + off) else d
/-- HOLD_CUTOFF (R331). -/
def execHoldCutoff (q : Fin 17) (s : State) : Host.Outcome State Fault Refusal := s.lift fun d => d.holdCutoff q

end Sys2Proof.Machine
end

