-- ==== Sys2Proof/Machine/Programs.lean ====
section
/-! DEFINITION. The meanings of the engine instructions (chapter 10): each works on its run, and a slot action that waited
for the engine is served (R67). -/

namespace Sys2Proof.Machine

/-- One instruction of an engine; the comparator sees its items, and a run that ends frees what a late slot action waits for (R67,
R277). -/
def State.engine (s : State) (f : Dev → Dev) : Host.Outcome State Fault Refusal := s.lift fun d => (f d).settle

/-- HALT (R211). -/
def execHalt (i : Issue) (s : State) : Host.Outcome State Fault Refusal := s.engine fun d => d.halt i
/-- NOP (R211). -/
def execNop (i : Issue) (s : State) : Host.Outcome State Fault Refusal := s.engine fun d => d.nop i
/-- BR (R208, R209). -/
def execBr (i : Issue) (s : State) : Host.Outcome State Fault Refusal := s.engine fun d => d.br i
/-- CALL (R209). -/
def execCall (i : Issue) (s : State) : Host.Outcome State Fault Refusal := s.engine fun d => d.call i
/-- RET (R209). -/
def execRet (i : Issue) (s : State) : Host.Outcome State Fault Refusal := s.engine fun d => d.retI i
/-- LOOPI (R210). -/
def execLoopi (i : Issue) (s : State) : Host.Outcome State Fault Refusal := s.engine fun d => d.loopi i
/-- MOV (R212). -/
def execMov (i : Issue) (s : State) : Host.Outcome State Fault Refusal := s.engine fun d => d.mov i
/-- LDI (R212). -/
def execLdi (i : Issue) (s : State) : Host.Outcome State Fault Refusal := s.engine fun d => d.ldi i
/-- LDIH (R212). -/
def execLdih (i : Issue) (s : State) : Host.Outcome State Fault Refusal := s.engine fun d => d.ldih i
/-- GETS (R213). -/
def execGets (i : Issue) (s : State) : Host.Outcome State Fault Refusal := s.engine fun d => d.gets i
/-- PUTS (R213). -/
def execPuts (i : Issue) (s : State) : Host.Outcome State Fault Refusal := s.engine fun d => d.puts i
/-- PSET (R212). -/
def execPset (i : Issue) (s : State) : Host.Outcome State Fault Refusal := s.engine fun d => d.pset i
/-- LD (R214). -/
def execLd (i : Issue) (s : State) : Host.Outcome State Fault Refusal := s.engine fun d => d.ld i
/-- ST (R214). -/
def execSt (i : Issue) (s : State) : Host.Outcome State Fault Refusal := s.engine fun d => d.st i
/-- ADD (R216). -/
def execAdd (i : Issue) (s : State) : Host.Outcome State Fault Refusal := s.engine fun d => d.add i
/-- SUB (R216). -/
def execSub (i : Issue) (s : State) : Host.Outcome State Fault Refusal := s.engine fun d => d.sub i
/-- ADDI (R216). -/
def execAddi (i : Issue) (s : State) : Host.Outcome State Fault Refusal := s.engine fun d => d.addi i
/-- ADDS (R217). -/
def execAdds (i : Issue) (s : State) : Host.Outcome State Fault Refusal := s.engine fun d => d.adds i
/-- SUBS (R217). -/
def execSubs (i : Issue) (s : State) : Host.Outcome State Fault Refusal := s.engine fun d => d.subs i
/-- NEGS (R217). -/
def execNegs (i : Issue) (s : State) : Host.Outcome State Fault Refusal := s.engine fun d => d.negs i
/-- SATP (R217). -/
def execSatp (i : Issue) (s : State) : Host.Outcome State Fault Refusal := s.engine fun d => d.satp i
/-- MIN (R217). -/
def execMin (i : Issue) (s : State) : Host.Outcome State Fault Refusal := s.engine fun d => d.min_ i
/-- MAX (R217). -/
def execMax (i : Issue) (s : State) : Host.Outcome State Fault Refusal := s.engine fun d => d.max_ i
/-- CLAMP (R217). -/
def execClamp (i : Issue) (s : State) : Host.Outcome State Fault Refusal := s.engine fun d => d.clamp_ i
/-- CMP (R217). -/
def execCmp (i : Issue) (s : State) : Host.Outcome State Fault Refusal := s.engine fun d => d.cmp i
/-- MULS (R218). -/
def execMuls (i : Issue) (s : State) : Host.Outcome State Fault Refusal := s.engine fun d => d.muls i
/-- MUL (R218). -/
def execMul (i : Issue) (s : State) : Host.Outcome State Fault Refusal := s.engine fun d => d.mul i
/-- MAC (R218). -/
def execMac (i : Issue) (s : State) : Host.Outcome State Fault Refusal := s.engine fun d => d.mac i
/-- ZRD (R218). -/
def execZrd (i : Issue) (s : State) : Host.Outcome State Fault Refusal := s.engine fun d => d.zrd i
/-- ZLD (R218). -/
def execZld (i : Issue) (s : State) : Host.Outcome State Fault Refusal := s.engine fun d => d.zld i
/-- AND (R219). -/
def execAnd (i : Issue) (s : State) : Host.Outcome State Fault Refusal := s.engine fun d => d.and_ i
/-- OR (R219). -/
def execOr (i : Issue) (s : State) : Host.Outcome State Fault Refusal := s.engine fun d => d.or_ i
/-- XOR (R219). -/
def execXor (i : Issue) (s : State) : Host.Outcome State Fault Refusal := s.engine fun d => d.xor_ i
/-- SHL (R220). -/
def execShl (i : Issue) (s : State) : Host.Outcome State Fault Refusal := s.engine fun d => d.shl i
/-- SHR (R220). -/
def execShr (i : Issue) (s : State) : Host.Outcome State Fault Refusal := s.engine fun d => d.shr i
/-- SAR (R220). -/
def execSar (i : Issue) (s : State) : Host.Outcome State Fault Refusal := s.engine fun d => d.sar i
/-- DIVSTEP (R221). -/
def execDivstep (i : Issue) (s : State) : Host.Outcome State Fault Refusal := s.engine fun d => d.divstep i
/-- TRIG (R222). -/
def execTrig (i : Issue) (s : State) : Host.Outcome State Fault Refusal := s.engine fun d => d.trigI i
/-- ATAN2 (R223). -/
def execAtan2 (i : Issue) (s : State) : Host.Outcome State Fault Refusal := s.engine fun d => d.atan2I i
/-- CLARKE (R224). -/
def execClarke (i : Issue) (s : State) : Host.Outcome State Fault Refusal := s.engine fun d => d.clarkeI i
/-- PARK (R225). -/
def execPark (i : Issue) (s : State) : Host.Outcome State Fault Refusal := s.engine fun d => d.parkI i
/-- IPARK (R225). -/
def execIpark (i : Issue) (s : State) : Host.Outcome State Fault Refusal := s.engine fun d => d.iparkI i
/-- SVM (R226). -/
def execSvm (i : Issue) (s : State) : Host.Outcome State Fault Refusal := s.engine fun d => d.svmI i
/-- PISTEP (R227). -/
def execPistep (i : Issue) (s : State) : Host.Outcome State Fault Refusal := s.engine fun d => d.pistepI i
/-- IN (R228). -/
def execIn (i : Issue) (s : State) : Host.Outcome State Fault Refusal := s.engine fun d => d.in_ i
/-- OUT (R228). -/
def execOut (i : Issue) (s : State) : Host.Outcome State Fault Refusal := s.engine fun d => d.out i
/-- RDAVG (R150). -/
def execRdavg (i : Issue) (s : State) : Host.Outcome State Fault Refusal := s.engine fun d => d.rdavg i
/-- RDPOS (R188). -/
def execRdpos (i : Issue) (s : State) : Host.Outcome State Fault Refusal := s.engine fun d => d.rdpos i
/-- WRDUTY (R189). -/
def execWrduty (i : Issue) (s : State) : Host.Outcome State Fault Refusal := s.engine fun d => d.wrduty i
/-- WRIREF (R190). -/
def execWriref (i : Issue) (s : State) : Host.Outcome State Fault Refusal := s.engine fun d => d.wriref i
/-- RDCEIL (R228). -/
def execRdceil (i : Issue) (s : State) : Host.Outcome State Fault Refusal := s.engine fun d => d.rdceil i
/-- LDF (R215). -/
def execLdf (i : Issue) (won : Bool) (s : State) : Host.Outcome State Fault Refusal := s.engine fun d => d.far i true won
/-- STF (R215). -/
def execStf (i : Issue) (won : Bool) (s : State) : Host.Outcome State Fault Refusal := s.engine fun d => d.far i false won
/-- FAR_ACCESS_COMPLETE (R193). -/
def execFarAccessComplete (bank : Fin 16) (ecc : Ecc) (s : State) : Host.Outcome State Fault Refusal :=
  s.engine fun d => d.farComplete bank ecc

end Sys2Proof.Machine
end

