-- ==== Sys2Proof/Machine/Resets.lean ====
section
/-! DEFINITION. Supplies, resets and the warden's start (R390 to R392, R407, R409 to R416): what each reset keeps, what
the boot read finds, and the host port's return. -/

namespace Sys2Proof.Machine

/-! ### Entering reset (R60, R318, R334, R380, R407, R412) -/

/-- Both command lines of every leg and the brake command lines are low (R97). -/
def Dev.allLinesLow (d : Dev) : Dev :=
  let d := d.each (List.range 24) fun l d => (d.linesLow l).legLeave l
  d.each (List.range 4) fun b d => d.modVent fun v => (v.modBrake b fun g => { g with cmd := false }).brakeUpdate d.clk.now b

/-- What a reset leaves of the journal (R303, R411): the retained state, without a transaction whose reservation was still open
(R304, R333). -/
def Journal.kept (j : Journal) : Journal :=
  let r := j.undo.getD j.retained
  { entries := r.entries, head := r.head, sources := r.sources, ops := r.ops, axisRec := r.axisRec, params := r.params
    clr := r.clr }

/-- DIE_RSTC after a reset with a cause (R416): the counts survive every reset but power-on. -/
def Dev.rstc (d : Dev) (cause : Nat) : Word :=
  let warm := if cause = 0 then 0 else satAdd 8 (d.get F.DIE_RSTC_WARM) (b2n (decide (cause ≤ 3)))
  let wdog := if cause = 0 then 0 else satAdd 8 (d.get F.DIE_RSTC_WDOG) (b2n (decide (4 ≤ cause)))
  wordN (cause + b2n (cause == 0) * 2 ^ 3 + warm * 2 ^ 4 + wdog * 2 ^ 12)

/-- The registers after a reset: the Reset column, the record of the cause, and the count of Vent-die resets since power-on
(R11, R120, R416). -/
def Dev.keptRegs (d : Dev) (cause : Nat) : List (Nat × Word) :=
  let vst : Word := if cause = 0 then 0 else fput 0 F.VNT_STAT_RSTCNT.lo F.VNT_STAT_RSTCNT.width (d.get F.VNT_STAT_RSTCNT)
  tset regReset (tset regReset [] (F.VNT_STAT_RSTCNT.at_ 0) (regReset (F.VNT_STAT_RSTCNT.at_ 0) ||| vst)) (F.DIE_RSTC_CAUSE.at_ 0)
    (d.rstc cause)

/-- The control-die logic goes into reset. Causes 1, 4 and 5 leave the link its clock, so that LINKDOWN is sent (R413).
Retention survives every cause but 0. -/
def Dev.enterReset (d : Dev) (cause : Nat) : Dev :=
  let d := d.allLinesLow
  let d := d.each (List.range 10) fun e d => d.cutBurst e
  { regs := d.keptRegs cause
    clk := { d.clk with frameStart := d.clk.now, ticked := false }
    sys := { d.sys with inReset := true, held := none, portUp := false, calInit := true, sealed := false
                        retDigest := if cause = 0 then none else d.sys.retDigest }
    vent := d.vent
    link := { linkdown := cause == 1 || decide (4 ≤ cause) }
    tap := d.tap
    jnl := if cause = 0 then {} else d.jnl.kept
    con := if cause = 0 then {} else
      { mem := d.con.mem.filter fun p => decide (calAddr 14 0 ≤ p.1), wb := d.con.wb.filter fun a => decide (calAddr 14 0 ≤ a)
        bad := d.con.bad.filter fun a => decide (calAddr 14 0 ≤ a) }
    host := { burst := d.host.burst, dead := d.host.dead || d.host.burst.isSome }
    wdn := { lserr := cause == 4 || d.wdn.stopped }
    free := d.free }

/-- A warm or watchdog reset. A programming pulse ends first (R399); in a reset already under way nothing changes. -/
def Dev.warm (d : Dev) (cause : Nat) : Dev :=
  if !d.awake then d
  else if d.flag F.SNT_STAT_PROG then
    { d with sys := { d.sys with held := some (d.sys.held.getD cause) } }
  else d.enterReset cause

/-- The TAP takes an instruction and the Vent die follows it; Capture-IR has loaded 0b0101 before (R456, R459). -/
def Dev.tapTo (d : Dev) (i : TapInstr) : Dev := { d with tap := { d.tap with ir := i.opcode, irOut := some 0b0101#4 } }.scanFollow

/-- A reset of the TAP selects IDCODE (R456). -/
def Dev.tapReset (d : Dev) : Dev := { d with tap := { d.tap with ir := TapInstr.opcode .idcode } }.scanFollow

/-- A power-on reset. It resets the TAP, too (R456). -/
def Dev.powerOn (d : Dev) : Dev :=
  ({ d with sys := { d.sys with vioLow := true } }.enterReset 0).tapReset

/-- A word whose pulse a power-on reset meets is untouched, programmed or spent: the manual does not say (log entry 28). -/
def State.powerOn (s : State) : State :=
  if s.dev.flag F.SNT_STAT_PROG then
    let n := s.dev.freeNat % 3
    let d := s.dev.tick1
    { s with dev := d.powerOn, otp := if n = 0 then s.otp else (d.wordDone s.otp (n == 1)).2 }
  else { s with dev := s.dev.powerOn }

/-! ### Supplies (R409, R410) -/

/-- A supply warning is entered or left. -/
def Dev.supplyWarn (d : Dev) (act latch : Fld) (was below : Bool) : Dev :=
  if !d.awake then d
  else
    let d := d.putB act 0 below
    if below && !was then (d.putB latch 0 true).raise 115 else d

/-- SUPPLY_MONITOR_CROSSING, but for VIO's reset threshold. -/
def Dev.supply (d : Dev) (sup : Supply) (reset below : Bool) : Dev :=
  match sup, reset with
  | .vcore, false => d
  | .vdda, false =>
    { d with sys := { d.sys with vddaWarn := below } }.supplyWarn F.DIE_SUP_VDDAW F.DIE_SUP_VDDAWL d.sys.vddaWarn below
  | .vio, false =>
    { d with sys := { d.sys with vioWarn := below } }.supplyWarn F.DIE_SUP_VIOW F.DIE_SUP_VIOWL d.sys.vioWarn below
  | .vcore, true =>
    let d := { d with sys := { d.sys with vcoreLow := below } }
    if below then d.warm 2 else d
  | .vdda, true =>
    let d := { d with sys := { d.sys with vddaLow := below } }
    if below then d.warm 2 else d
  | .vio, true => { d with sys := { d.sys with vioLow := below } }

/-- SUPPLY_MONITOR_CROSSING: VIO below its reset threshold is a power-on reset (R411). -/
def State.supply (s : State) (sup : Supply) (reset below : Bool) : State :=
  if sup == .vio && reset && below then s.powerOn else { s with dev := s.dev.supply sup reset below }

/-! ### The boot read (R390, R391) -/

/-- The two reads of a word differ. A rollback word carries no ECC. -/
def readsDiffer (r : OtpRead) : Bool :=
  r.hi != r.lo || (!isRollback r.addr && (r.hiBad || r.loBad))

/-- The marginal words, in ascending order, each with its first entry. -/
def marginalReads (reads : List OtpRead) : List (Nat × Option OtpRead) :=
  reads.foldr (fun r t => if readsDiffer r then tset (fun _ => none) t r.addr (some r) else t) []

/-- The boot reads of a word: whether it is accepted, and its data bits at the high and at the low reference. -/
def bootWord (otp : List (Nat × Option Word)) (m : List (Nat × Option OtpRead)) (a : Nat) : Bool × Word × Word :=
  match tget (fun _ => none) m a with
  | some r => (false, r.hi, r.lo)
  | none => let w := (otpWord otp a).getD 0; (true, w, w)

/-- The bitwise majority of three words. -/
def majority (a b c : Word) : Word := (a &&& b) ||| (a &&& c) ||| (b &&& c)

/-- How a critical record is settled: its value, or `none` for a marginal record, and whether it took a majority. -/
def settle (x y z : Bool × Word × Word) : Option Word × Bool :=
  if x.1 && y.1 && x.2.1 == y.2.1 then (some x.2.1, false)
  else if x.1 && z.1 && x.2.1 == z.2.1 then (some x.2.1, false)
  else if y.1 && z.1 && y.2.1 == z.2.1 then (some y.2.1, false)
  else
    let h := majority x.2.1 y.2.1 z.2.1
    let l := majority x.2.2 y.2.2 z.2.2
    if h = l then (some h, true) else (none, false)

/-- A critical record as the boot reads give it (R387). -/
def critical (otp : List (Nat × Option Word)) (m : List (Nat × Option OtpRead)) (r : Nat) : Option Word × Bool :=
  settle (bootWord otp m (0x3C0 + r)) (bootWord otp m (0x3D5 + r)) (bootWord otp m (0x3EA + r))

/-- A vendor word; a marginal one reads as a free value (log entry 28). -/
def Dev.vendorWord (d : Dev) (otp : List (Nat × Option Word)) (a : Nat) : Nat :=
  if d.wdn.marginal.contains a then (Config.freeWord (d.free + a)).toNat else ((otpWord otp a).getD 0).toNat

/-- The boot read's findings: SNT_STAT, EV120, RESTRICTED mode and the locks. -/
def Dev.bootRead (d : Dev) (otp : List (Nat × Option Word)) (reads : List OtpRead) : Dev :=
  let m := marginalReads reads
  let recs := (List.range 21).map fun r => critical otp m r
  let d := d.modWdn fun w => { w with
    marginal := m.map fun p => p.1
    roll := (m.filter fun p => isRollback p.1).map fun p => (p.1, match p.2 with
      | some r => r.hi ||| r.lo
      | none => 0) }
  let d := (d.put F.SNT_STAT_MCNT 0 (min m.length 255)).put F.SNT_STAT_MADDR 0 ((m.map fun p => p.1).headD 0)
  let d := (d.raiseIf (!m.isEmpty) 120).putB F.SNT_STAT_MAJ 0 (recs.any fun x => x.2)
  let restr := (recs.any fun x => x.1.isNone) || m.any fun p => decide (p.1 < 0x100)
  let d := (d.putB F.WDN_STAT_RESTR 0 restr).raiseIf restr 123
  d.put F.SNT_LOCK_LOCK 0 ((List.range 5).foldl (fun n r =>
    n + b2n ((recs.getD r (some 0, false)).1 != some 0) * 2 ^ r) 0)

/-- The fields whose Reset column reads OTP. -/
def Dev.bootFields (d : Dev) (otp : List (Nat × Option Word)) : Dev :=
  let d := (d.showKeys otp).showCounters otp
  let d := (d.put F.SNT_ID_ID 0 (d.vendorWord otp 1)).setReg (F.SNT_REV_PART.at_ 0) (wordN (d.vendorWord otp 0 % 2 ^ 24))
  let d := { d with free := d.free + 2 }
  let d := d.put F.WDN_STAT_ROMVER 0 (Config.vendorTrim (F.WDN_STAT_ROMVER.at_ 0)).toNat
  d.each (List.range 16) fun b d => d.loadTrims b

/-- A supply warning that still holds is recorded after the release (R432). -/
def Dev.warnAtRelease (d : Dev) (act latch : Fld) (holds : Bool) : Dev :=
  if holds then ((d.putB act 0 true).putB latch 0 true).raise 115 else d

/-- Every reset condition has cleared. The PLL locks by itself (R410): the release says that it has. -/
def SysState.clear (s : SysState) : Bool := !s.vcoreLow && !s.vddaLow && !s.vioLow && !s.testen

/-- RESET_RELEASE: the warden starts from ROM, reads Sinter and turns to its image source (R29, R60). -/
def Dev.bootUp (d : Dev) (otp : List (Nat × Option Word)) (bootHigh : Bool) (reads : List OtpRead) : Dev :=
  if d.awake || !d.sys.clear then d
  else
    let mode := if d.get F.DIE_RSTC_CAUSE = 0 then b2n bootHigh else d.sys.bootmode
    let d := { d with
      sys := { d.sys with inReset := false, pllBad := false, bootmode := mode }
      clk := { d.clk with base := d.clk.now, frameStart := d.clk.now } }
    let d := d.putB F.DIE_SUP_PLLOK 0 true
    let d := d.warnAtRelease F.DIE_SUP_VIOW F.DIE_SUP_VIOWL d.sys.vioWarn
    let d := d.warnAtRelease F.DIE_SUP_VDDAW F.DIE_SUP_VDDAWL d.sys.vddaWarn
    let d := (d.bootRead otp reads).bootFields otp
    let d := (d.putB F.WDN_STAT_LSERR 0 d.wdn.lserr).putB F.SNT_STAT_BOOTDONE 0 true
    if mode = 1 then
      { d with img := { d.img with nextCopy := 2 } }.put F.SYS_IMGSTAT_STATE 0 ImgSt.waitHost
    else d

/-! ### Other causes and the host port's return -/

/-- RST_N is low for some nanoseconds (R414): short pulses are ignored, medium ones may be. -/
def Dev.rstLow (d : Dev) (ns : Nat) : Dev :=
  if ns < 200 then d
  else if 1000 ≤ ns || Config.rstPulseTaken d.free then d.tick1.warm 1
  else d.tick1

/-- PLL_LOCK_LOSS (R410). -/
def Dev.pllLoss (d : Dev) : Dev :=
  ({ d with sys := { d.sys with pllBad := true } }.when d.awake fun d => d.putB F.DIE_SUP_PLLOK 0 false).warm 3

/-- The word of the warden's retention record that takes the cause of a mismatch. The manual gives the record, not the
word: log entry 33. -/
def causeWord : Nat := calAddr 14 0x7800

/-- LOCKSTEP_MISMATCH (R383). -/
def Dev.lockstep (d : Dev) (cause : Word) : Dev :=
  if d.wardenUp then ((d.conWrite causeWord cause).modWdn fun w => { w with stopped := true }).warm 4 else d

/-- HOST_PORT_READY (R373). -/
def Dev.portReady (d : Dev) : Dev :=
  if !d.awake || d.sys.portUp then d
  else { d with sys := { d.sys with portUp := true } }.putB F.HST_STAT_RSTF 0 true

/-- OTP_WORD_PROGRAMMED (R398): the service goes on or ends, and a reset that waited for the pulse is taken (R399). -/
def State.wordProgrammed (s : State) (ok : Bool) : State :=
  if s.dev.awake && s.dev.wdn.svc.isSome then
    let r := s.dev.wordDone s.otp ok
    { s with otp := r.2, dev := match r.1.sys.held with
      | some c => r.1.enterReset c
      | none => r.1 }
  else s

/-! ### Meanings -/

/-- The number of a warm cause in DIE_RSTC (R412). -/
def warmCode : WarmCause → Nat
  | .pin => 1
  | .brownout => 2
  | .clock => 3

/-- POWER_ON_RESET (R412). -/
def execPowerOnReset (s : State) : Host.Outcome State Fault Refusal := .next s.powerOn
/-- SUPPLY_MONITOR_CROSSING (R409). -/
def execSupplyMonitorCrossing (sup : Supply) (reset below : Bool) (s : State) : Host.Outcome State Fault Refusal :=
  .next (s.supply sup reset below)
/-- WARM_RESET (R412). -/
def execWarmReset (cause : WarmCause) (s : State) : Host.Outcome State Fault Refusal := s.lift fun d => d.warm (warmCode cause)
/-- PLL_LOCK_LOSS (R410). -/
def execPllLockLoss (s : State) : Host.Outcome State Fault Refusal := s.lift Dev.pllLoss
/-- RST_N_LOW (R414). -/
def execRstNLow (ns : Nat) (s : State) : Host.Outcome State Fault Refusal := s.lift fun d => d.rstLow ns
/-- RESET_RELEASE (R410). -/
def execResetRelease (bootHigh : Bool) (reads : List OtpRead) (s : State) : Host.Outcome State Fault Refusal :=
  s.liftOtp fun otp d => d.bootUp otp bootHigh reads
/-- SUPERVISOR_TIMEOUT (R415). -/
def execSupervisorTimeout (s : State) : Host.Outcome State Fault Refusal := s.lift fun d => d.warm 5
/-- LOCKSTEP_MISMATCH (R383). -/
def execLockstepMismatch (cause : Word) (s : State) : Host.Outcome State Fault Refusal := s.lift fun d => d.lockstep cause
/-- HOST_PORT_READY (R373). -/
def execHostPortReady (s : State) : Host.Outcome State Fault Refusal := s.lift Dev.portReady
/-- OTP_WORD_PROGRAMMED (R398). -/
def execOtpWordProgrammed (ok : Bool) (s : State) : Host.Outcome State Fault Refusal := .next (s.wordProgrammed ok)

end Sys2Proof.Machine
end

