-- ==== Sys2Proof/Machine/Scan.lean ====
section
/-! DEFINITION. The test access port and the boundary cells (R456 to R461): the selected register as it is captured, the
instructions, the update of the cells, and the interlock on the high-voltage nodes. -/

namespace Sys2Proof.Machine

/-- The device identification register (R457). -/
def Dev.idcode (d : Dev) : Nat := d.get F.SNT_REV_REV % 16 * 2 ^ 28 + 0x0840 * 2 ^ 12 + 0x547 * 2 + 1

/-- What a gate cell captures: cells 2n and 2n + 1 the gates of LEGn, cells 48 to 51 the brake gates (R458, R459). -/
def Vent.gateCell (v : Vent) (c : Nat) : Bool :=
  if c < 48 then (if c % 2 = 0 then (v.leg (c / 2)).h.on else (v.leg (c / 2)).l.on) else (v.brake (c - 48)).gate

/-- Controller `n` drives CANnTX recessive only: it is not on the bus, or it listens (R337, R338, R358, R360). -/
def Dev.recessive (d : Dev) (n : Nat) : Bool := !d.awake || !d.onBus n || d.flag F.CAN_CTL_LISTEN n

/-- HCS_N is low: a burst is in progress. Before its first frame is complete no command shows it, and the level is free. -/
def Dev.hcsHigh (d : Dev) : Bool := d.host.burst.isNone && !d.host.dead && d.freeNat.testBit 36

/-- The function's own level of the output at cell `c`, and of a control cell: CANnTX (53, 55, 57, 59) is high while it is recessive;
SYNCOUT (74); the control cells of IRQ3 to IRQ0 (76, 78, 80, 82) and of HMISO (85), which is high impedance while HCS_N (88) is
high or the port is down (R363, R373). Another level is a free value (log entry 28). -/
def Dev.ownLevel (d : Dev) (c : Nat) : Bool :=
  if c < 60 ∧ c % 2 = 1 then d.recessive ((59 - c) / 2) || d.freeNat.testBit (c - 52)
  else if c = 74 then d.syncoutHigh
  else if c = 85 then d.hostUp && !d.hcsHigh
  else if 76 ≤ c ∧ c < 84 ∧ c % 2 = 0 then d.irqLow ((83 - c) / 2)
  else d.freeNat.testBit (c - 52)

/-- The control cell of the output at cell `c`: BFD3 to BFD0 and HMISO have one. -/
def controlCell (c : Nat) : Option Nat :=
  if c = 84 then some 85 else if c = 61 ∨ c = 64 ∨ c = 67 ∨ c = 70 then some (c + 1) else none

/-- What the part drives on the pin of the output at cell `c`, `none` for high impedance (R458, R459): under EXTEST and CLAMP its
cell's update latch where the control cell's enables it, nothing under HIGHZ, and its function's level otherwise. -/
def Dev.outPin (d : Dev) (c : Nat) : Option Bool :=
  let cells := fun (f : Nat → Bool) => match controlCell c with
    | some k => if f k then some (f c) else none
    | none => some (f c)
  match d.tap.instr with
  | .highz => none
  | .extest => cells fun n => d.tap.latch.getLsbD n
  | .clamp => cells fun n => d.tap.latch.getLsbD n
  | _ => cells d.ownLevel

/-- What a cell captures: a gate, an output's own level, or the level of an input's pin, with what the part drives on it. -/
def Dev.captures (d : Dev) (c : Nat) : Bool :=
  if c < 52 then d.vent.gateCell c
  else if c = 60 ∨ c = 63 ∨ c = 66 ∨ c = 69 then (d.outPin (c + 1)).getD (d.freeNat.testBit (c - 52))
  else if c = 88 then d.hcsHigh
  else if 76 ≤ c ∧ c < 84 ∧ c % 2 = 1 then !d.irqDriven ((83 - c) / 2) && d.freeNat.testBit (c - 52)
  else d.ownLevel c

/-- The selected data register as it is captured: the boundary cells, the identification register, or a bypass bit at 0. -/
def Dev.capture (d : Dev) : BitVec 91 := match d.tap.instr with
  | .extest => BitVec.ofNat 91 ((List.range 91).foldl (fun n c => n + b2n (d.captures c) * 2 ^ c) 0)
  | .sample => BitVec.ofNat 91 ((List.range 91).foldl (fun n c => n + b2n (d.captures c) * 2 ^ c) 0)
  | .idcode => BitVec.ofNat 91 d.idcode
  | _ => 0

/-- The selected register is captured. -/
def Dev.captured (d : Dev) : Dev := { d with tap := { d.tap with sample := d.capture } }.tick1

/-- An instruction becomes current. -/
def Dev.tapInstr (d : Dev) (i : TapInstr) : Dev := (d.tapTo i).captured

/-- SCAN_UPDATE_DR: the boundary register captures the pins and its update latches take the shifted bits. Under the other
instructions the boundary register is not selected. -/
def Dev.updateDr (d : Dev) (cells : BitVec 91) : Dev :=
  if d.tap.instr = .extest ∨ d.tap.instr = .sample then
    let d := d.captured
    { d with tap := { d.tap with latch := cells } }.scanFollow
  else d

/-- SCAN_BUS_INTERLOCK: a high-voltage node rises above the threshold, or all have fallen below it (R460). -/
def Dev.busInterlock (d : Dev) (above : Bool) : Dev := { d with tap := { d.tap with hv := above } }.scanFollow

/-! ### Meanings -/

/-- TAP_RESET (R456). -/
def execTapReset (s : State) : Host.Outcome State Fault Refusal := s.lift fun d => d.tapReset.captured
/-- EXTEST (R459). -/
def execExtest (s : State) : Host.Outcome State Fault Refusal := s.lift fun d => d.tapInstr .extest
/-- SAMPLE_PRELOAD (R459). -/
def execSamplePreload (s : State) : Host.Outcome State Fault Refusal := s.lift fun d => d.tapInstr .sample
/-- IDCODE (R457). -/
def execIdcode (s : State) : Host.Outcome State Fault Refusal := s.lift fun d => d.tapInstr .idcode
/-- TAP_CLAMP (R459). -/
def execTapClamp (s : State) : Host.Outcome State Fault Refusal := s.lift fun d => d.tapInstr .clamp
/-- HIGHZ (R459). -/
def execHighz (s : State) : Host.Outcome State Fault Refusal := s.lift fun d => d.tapInstr .highz
/-- BYPASS (R456). -/
def execBypass (s : State) : Host.Outcome State Fault Refusal := s.lift fun d => d.tapInstr .bypass
/-- SCAN_UPDATE_DR (R459). -/
def execScanUpdateDr (cells : BitVec 91) (s : State) : Host.Outcome State Fault Refusal := s.lift fun d => d.updateDr cells
/-- SCAN_BUS_INTERLOCK (R460). -/
def execScanBusInterlock (above : Bool) (s : State) : Host.Outcome State Fault Refusal := s.lift fun d => d.busInterlock above

end Sys2Proof.Machine
end

