-- ==== Sys2Proof/Machine/Dispatch.lean ====
section
/-! DEFINITION. One arm for every command (R17): a direct call of its meaning. -/

namespace Sys2Proof.Machine

def exec (i : Instr) (s : State) : Host.Outcome State Fault Refusal :=
  match i with
  | .powerOnReset => Sys2Proof.Machine.execPowerOnReset s
  | .supplyMonitorCrossing sup reset below => Sys2Proof.Machine.execSupplyMonitorCrossing sup reset below s
  | .warmReset cause => Sys2Proof.Machine.execWarmReset cause s
  | .pllLockLoss => Sys2Proof.Machine.execPllLockLoss s
  | .rstNLow ns => Sys2Proof.Machine.execRstNLow ns s
  | .resetRelease bootHigh reads => Sys2Proof.Machine.execResetRelease bootHigh reads s
  | .linkdown => Sys2Proof.Machine.execLinkdown s
  | .supervisorTimeout => Sys2Proof.Machine.execSupervisorTimeout s
  | .lockstepMismatch cause => Sys2Proof.Machine.execLockstepMismatch cause s
  | .calderaInitDone => Sys2Proof.Machine.execCalderaInitDone s
  | .hostPortReady => Sys2Proof.Machine.execHostPortReady s
  | .imageLoad copy => Sys2Proof.Machine.execImageLoad copy s
  | .sysImgpushGo w => Sys2Proof.Machine.execSysImgpushGo w s
  | .seal => Sys2Proof.Machine.execSeal s
  | .ventConfigConfirm same => Sys2Proof.Machine.execVentConfigConfirm same s
  | .ventConfigTimeout => Sys2Proof.Machine.execVentConfigTimeout s
  | .rollbackAdvance => Sys2Proof.Machine.execRollbackAdvance s
  | .geyserTick => Sys2Proof.Machine.execGeyserTick s
  | .prog slot => Sys2Proof.Machine.execProg slot s
  | .ckpt slot => Sys2Proof.Machine.execCkpt slot s
  | .journal slot m14 m15 => Sys2Proof.Machine.execJournal slot m14 m15 s
  | .heartbeat slot => Sys2Proof.Machine.execHeartbeat slot s
  | .cantx slot => Sys2Proof.Machine.execCantx slot s
  | .mark slot => Sys2Proof.Machine.execMark slot s
  | .geyCommitGo t => Sys2Proof.Machine.execGeyCommitGo t s
  | .commitValidationDone => Sys2Proof.Machine.execCommitValidationDone s
  | .geyCommitCancel => Sys2Proof.Machine.execGeyCommitCancel s
  | .syncinEdge t => Sys2Proof.Machine.execSyncinEdge t s
  | .syncinTimeout => Sys2Proof.Machine.execSyncinTimeout s
  | .carrierBoundary leg => Sys2Proof.Machine.execCarrierBoundary leg s
  | .gateTurnOn leg high bstMv early => Sys2Proof.Machine.execGateTurnOn leg high bstMv early s
  | .crossConductionInterlock leg => Sys2Proof.Machine.execCrossConductionInterlock leg s
  | .shortHighRefresh leg => Sys2Proof.Machine.execShortHighRefresh leg s
  | .brakeComparatorOn lb => Sys2Proof.Machine.execBrakeComparatorOn lb s
  | .brakeComparatorOff lb => Sys2Proof.Machine.execBrakeComparatorOff lb s
  | .vdsDetection leg high stamp => Sys2Proof.Machine.execVdsDetection leg high stamp s
  | .blankingEnd leg high present stamp => Sys2Proof.Machine.execBlankingEnd leg high present stamp s
  | .brakeShortDetection lb stamp => Sys2Proof.Machine.execBrakeShortDetection lb stamp s
  | .brakeScHoldEnd lb => Sys2Proof.Machine.execBrakeScHoldEnd lb s
  | .bstuv leg => Sys2Proof.Machine.execBstuv leg s
  | .tripLine axis => Sys2Proof.Machine.execTripLine axis s
  | .vdrvMonitor high active => Sys2Proof.Machine.execVdrvMonitor high active s
  | .vdrvUvlo => Sys2Proof.Machine.execVdrvUvlo s
  | .ventResetRelease => Sys2Proof.Machine.execVentResetRelease s
  | .ventHeartbeatRx crcOk vdrv iFrame => Sys2Proof.Machine.execVentHeartbeatRx crcOk vdrv iFrame s
  | .heartbeatTimeout => Sys2Proof.Machine.execHeartbeatTimeout s
  | .statusPacket crcOk => Sys2Proof.Machine.execStatusPacket crcOk s
  | .statusPacketTimeout => Sys2Proof.Machine.execStatusPacketTimeout s
  | .stopPacket axis => Sys2Proof.Machine.execStopPacket axis s
  | .diodeReading ok temp => Sys2Proof.Machine.execDiodeReading ok temp s
  | .armReq axis n1 => Sys2Proof.Machine.execArmReq axis n1 s
  | .armChal axis n1 n2 => Sys2Proof.Machine.execArmChal axis n1 n2 s
  | .armConf axis n1 n2 => Sys2Proof.Machine.execArmConf axis n1 n2 s
  | .armAck axis => Sys2Proof.Machine.execArmAck axis s
  | .armNak axis reason => Sys2Proof.Machine.execArmNak axis reason s
  | .armExchangeTimeout => Sys2Proof.Machine.execArmExchangeTimeout s
  | .faultClearConfirm => Sys2Proof.Machine.execFaultClearConfirm s
  | .vntFclrGo w => Sys2Proof.Machine.execVntFclrGo w s
  | .adcSample bank entry raw t => Sys2Proof.Machine.execAdcSample bank entry raw t s
  | .refOkRise pair => Sys2Proof.Machine.execRefOkRise pair s
  | .refOkFall pair => Sys2Proof.Machine.execRefOkFall pair s
  | .refLate pair => Sys2Proof.Machine.execRefLate pair s
  | .adcCalFreeze bank on => Sys2Proof.Machine.execAdcCalFreeze bank on s
  | .adcCalRestart bank => Sys2Proof.Machine.execAdcCalRestart bank s
  | .corDiagWrite ch w => Sys2Proof.Machine.execCorDiagWrite ch w s
  | .samplePairComplete unit tol t => Sys2Proof.Machine.execSamplePairComplete unit tol t s
  | .rearm unit => Sys2Proof.Machine.execRearm unit s
  | .windowEdge axis t => Sys2Proof.Machine.execWindowEdge axis t s
  | .catchWindowEnd axis => Sys2Proof.Machine.execCatchWindowEnd axis s
  | .brakeFloatStart axis => Sys2Proof.Machine.execBrakeFloatStart axis s
  | .brakeEvaluation axis => Sys2Proof.Machine.execBrakeEvaluation axis s
  | .brakeTimeout axis => Sys2Proof.Machine.execBrakeTimeout axis s
  | .startAttemptFail axis => Sys2Proof.Machine.execStartAttemptFail axis s
  | .retryDelayEnd axis => Sys2Proof.Machine.execRetryDelayEnd axis s
  | .reacqTimeout axis => Sys2Proof.Machine.execReacqTimeout axis s
  | .rampTimeout axis => Sys2Proof.Machine.execRampTimeout axis s
  | .nop iss => Sys2Proof.Machine.execNop iss s
  | .halt iss => Sys2Proof.Machine.execHalt iss s
  | .br iss => Sys2Proof.Machine.execBr iss s
  | .call iss => Sys2Proof.Machine.execCall iss s
  | .ret iss => Sys2Proof.Machine.execRet iss s
  | .loopi iss => Sys2Proof.Machine.execLoopi iss s
  | .mov iss => Sys2Proof.Machine.execMov iss s
  | .ldi iss => Sys2Proof.Machine.execLdi iss s
  | .ldih iss => Sys2Proof.Machine.execLdih iss s
  | .gets iss => Sys2Proof.Machine.execGets iss s
  | .puts iss => Sys2Proof.Machine.execPuts iss s
  | .pset iss => Sys2Proof.Machine.execPset iss s
  | .ld iss => Sys2Proof.Machine.execLd iss s
  | .st iss => Sys2Proof.Machine.execSt iss s
  | .ldf iss won => Sys2Proof.Machine.execLdf iss won s
  | .stf iss won => Sys2Proof.Machine.execStf iss won s
  | .farAccessComplete bank ecc => Sys2Proof.Machine.execFarAccessComplete bank ecc s
  | .add iss => Sys2Proof.Machine.execAdd iss s
  | .sub iss => Sys2Proof.Machine.execSub iss s
  | .addi iss => Sys2Proof.Machine.execAddi iss s
  | .adds iss => Sys2Proof.Machine.execAdds iss s
  | .subs iss => Sys2Proof.Machine.execSubs iss s
  | .negs iss => Sys2Proof.Machine.execNegs iss s
  | .satp iss => Sys2Proof.Machine.execSatp iss s
  | .min_ iss => Sys2Proof.Machine.execMin iss s
  | .max_ iss => Sys2Proof.Machine.execMax iss s
  | .clamp iss => Sys2Proof.Machine.execClamp iss s
  | .cmp iss => Sys2Proof.Machine.execCmp iss s
  | .muls iss => Sys2Proof.Machine.execMuls iss s
  | .mul iss => Sys2Proof.Machine.execMul iss s
  | .mac iss => Sys2Proof.Machine.execMac iss s
  | .zrd iss => Sys2Proof.Machine.execZrd iss s
  | .zld iss => Sys2Proof.Machine.execZld iss s
  | .and_ iss => Sys2Proof.Machine.execAnd iss s
  | .or_ iss => Sys2Proof.Machine.execOr iss s
  | .xor_ iss => Sys2Proof.Machine.execXor iss s
  | .shl iss => Sys2Proof.Machine.execShl iss s
  | .shr iss => Sys2Proof.Machine.execShr iss s
  | .sar iss => Sys2Proof.Machine.execSar iss s
  | .divstep iss => Sys2Proof.Machine.execDivstep iss s
  | .trig iss => Sys2Proof.Machine.execTrig iss s
  | .atan2 iss => Sys2Proof.Machine.execAtan2 iss s
  | .clarke iss => Sys2Proof.Machine.execClarke iss s
  | .park iss => Sys2Proof.Machine.execPark iss s
  | .ipark iss => Sys2Proof.Machine.execIpark iss s
  | .svm iss => Sys2Proof.Machine.execSvm iss s
  | .pistep iss => Sys2Proof.Machine.execPistep iss s
  | .in_ iss => Sys2Proof.Machine.execIn iss s
  | .out iss => Sys2Proof.Machine.execOut iss s
  | .rdavg iss => Sys2Proof.Machine.execRdavg iss s
  | .rdpos iss => Sys2Proof.Machine.execRdpos iss s
  | .wrduty iss => Sys2Proof.Machine.execWrduty iss s
  | .wriref iss => Sys2Proof.Machine.execWriref iss s
  | .rdceil iss => Sys2Proof.Machine.execRdceil iss s
  | .illegalInstruction eng w => Sys2Proof.Machine.execIllegalInstruction eng w s
  | .fetchFault eng => Sys2Proof.Machine.execFetchFault eng s
  | .engineDeadline eng => Sys2Proof.Machine.execEngineDeadline eng s
  | .engineHang eng => Sys2Proof.Machine.execEngineHang eng s
  | .parityError eng => Sys2Proof.Machine.execParityError eng s
  | .clockMonitorFault eng => Sys2Proof.Machine.execClockMonitorFault eng s
  | .patrolVerdict res => Sys2Proof.Machine.execPatrolVerdict res s
  | .promotion => Sys2Proof.Machine.execPromotion s
  | .takeoverStart res => Sys2Proof.Machine.execTakeoverStart res s
  | .hostFrame bits => Sys2Proof.Machine.execHostFrame bits s
  | .hostBurstEnd partialBits => Sys2Proof.Machine.execHostBurstEnd partialBits s
  | .registerWrite m addr w => Sys2Proof.Machine.execRegisterWrite m addr w s
  | .calderaWindowAccess done ecc => Sys2Proof.Machine.execCalderaWindowAccess done ecc s
  | .jnlAckRead => Sys2Proof.Machine.execJnlAckRead s
  | .canWindowRead c off => Sys2Proof.Machine.execCanWindowRead c off s
  | .wardenEvent ev => Sys2Proof.Machine.execWardenEvent ev s
  | .batchCommit m14 m15 => Sys2Proof.Machine.execBatchCommit m14 m15 s
  | .sourceAgeOut src => Sys2Proof.Machine.execSourceAgeOut src s
  | .hello e => Sys2Proof.Machine.execHello e s
  | .setpoint e => Sys2Proof.Machine.execSetpoint e s
  | .mode e => Sys2Proof.Machine.execMode e s
  | .start e => Sys2Proof.Machine.execStart e s
  | .stop e => Sys2Proof.Machine.execStop e s
  | .abort e => Sys2Proof.Machine.execAbort e s
  | .clearFault e => Sys2Proof.Machine.execClearFault e s
  | .param e => Sys2Proof.Machine.execParam e s
  | .query e => Sys2Proof.Machine.execQuery e s
  | .canBusIntegration c => Sys2Proof.Machine.execCanBusIntegration c s
  | .canFrameRx c f => Sys2Proof.Machine.execCanFrameRx c f s
  | .commandFrameTaken c => Sys2Proof.Machine.execCommandFrameTaken c s
  | .transferTimeout c src => Sys2Proof.Machine.execTransferTimeout c src s
  | .canTxreqReq c mask => Sys2Proof.Machine.execCanTxreqReq c mask s
  | .canTxreqCancel c mask => Sys2Proof.Machine.execCanTxreqCancel c mask s
  | .canTxDone c tdcv => Sys2Proof.Machine.execCanTxDone c tdcv s
  | .canTxLost c why => Sys2Proof.Machine.execCanTxLost c why s
  | .busOff c => Sys2Proof.Machine.execBusOff c s
  | .busOffRecoveryDone c => Sys2Proof.Machine.execBusOffRecoveryDone c s
  | .borec c => Sys2Proof.Machine.execBorec c s
  | .haltController c on => Sys2Proof.Machine.execHaltController c on s
  | .canDmaWrite c ok => Sys2Proof.Machine.execCanDmaWrite c ok s
  | .holdCutoff q => Sys2Proof.Machine.execHoldCutoff q s
  | .reservationRelease q => Sys2Proof.Machine.execReservationRelease q s
  | .eccWriteBack bank => Sys2Proof.Machine.execEccWriteBack bank s
  | .otpRead => Sys2Proof.Machine.execOtpRead s
  | .otpProg => Sys2Proof.Machine.execOtpProg s
  | .keyProg => Sys2Proof.Machine.execKeyProg s
  | .revoke => Sys2Proof.Machine.execRevoke s
  | .lock => Sys2Proof.Machine.execLock s
  | .rollAdv => Sys2Proof.Machine.execRollAdv s
  | .patch => Sys2Proof.Machine.execPatch s
  | .engReset => Sys2Proof.Machine.execEngReset s
  | .otpWordProgrammed ok => Sys2Proof.Machine.execOtpWordProgrammed ok s
  | .mailboxAbort => Sys2Proof.Machine.execMailboxAbort s
  | .programmingWindowChange vioOk tjOk => Sys2Proof.Machine.execProgrammingWindowChange vioOk tjOk s
  | .sntLockSet bits => Sys2Proof.Machine.execSntLockSet bits s
  | .tapReset => Sys2Proof.Machine.execTapReset s
  | .extest => Sys2Proof.Machine.execExtest s
  | .samplePreload => Sys2Proof.Machine.execSamplePreload s
  | .idcode => Sys2Proof.Machine.execIdcode s
  | .tapClamp => Sys2Proof.Machine.execTapClamp s
  | .highz => Sys2Proof.Machine.execHighz s
  | .bypass => Sys2Proof.Machine.execBypass s
  | .scanUpdateDr cells => Sys2Proof.Machine.execScanUpdateDr cells s
  | .scanBusInterlock above => Sys2Proof.Machine.execScanBusInterlock above s
  | .pwmCommandEdge leg edge => Sys2Proof.Machine.execPwmCommandEdge leg edge s
  | .syncoutEnd => Sys2Proof.Machine.execSyncoutEnd s
  | .thermalReadingExpiry => Sys2Proof.Machine.execThermalReadingExpiry s
  | .canTxStart c t => Sys2Proof.Machine.execCanTxStart c t s
  | .canReceiveError c inc kind dataPhase => Sys2Proof.Machine.execCanReceiveError c inc kind dataPhase s

end Sys2Proof.Machine
end

