-- ==== Sys2Proof/Safety.lean ====
section
/-! DEFINITION. The terms in which claims are stated: invariants of the parts, an engine that is ready to issue an
instruction, and what one instruction leaves as it was. -/

namespace Sys2Proof.Machine

/-! ### Invariants -/

/-- Both gates of a leg are off or exactly one is on: no leg conducts through both gates (R86). -/
def VLeg.noShoot (l : VLeg) : Bool := !(l.h.on && l.l.on)

/-- The Sinter array only ever gains ones: every programmed word of `a` is programmed in `b` (R384). -/
def otpGrows (a b : Nat → Option Word) : Prop := ∀ i, (a i).isSome = true → (b i).isSome = true

/-- Caldera and the Sinter array are in canonical form. -/
def State.tablesOk (s : State) : Prop := Memory.wf s.dev.con.mem = true ∧ twf (fun _ => none) s.otp = true

/-- No leg of the Vent die conducts through both gates (R86). -/
def State.noShoot (s : State) : Prop := ∀ l, l < 24 → (s.dev.vent.leg l).noShoot = true

/-- What a programming service under way has still to program: each word once, blank and outside the rollback region
(R384, R385), or a bit of one of the two counters (R388). -/
def State.otpSound (s : State) : Prop :=
  ∀ v, s.dev.wdn.svc = some v →
    match v.roll with
    | none => (v.todo.map Prod.fst).Nodup ∧ ∀ p ∈ v.todo, otpWord s.otp p.1 = none ∧ isRollback p.1 = false
    | some r => (r.base = imageCounter ∨ r.base = patchCounter) ∧ r.bit < 1280

/-- The order of the authority states (R417). -/
def Auth.rank : Auth → Nat
  | .safe => 0
  | .armed => 1
  | .run => 2

/-! ### Registers and events -/

/-- From `a` to `b` no register has changed but those at the listed addresses. -/
def Dev.keepsRegs (a b : Dev) (l : List Nat) : Prop := ∀ x, x ∉ l → b.reg x = a.reg x

/-- From `a` to `b` nothing has changed but the registers at the listed addresses. -/
def Dev.regsOnly (a b : Dev) (l : List Nat) : Prop := b = { a with regs := b.regs } ∧ a.keepsRegs b l

/-- Command `c` answers a next state in which the Sinter array and the queue are as before, and the device as `P` states. -/
def Gives (s : State) (c : Instr) (P : Dev → Prop) : Prop := ∃ d : Dev, exec c s = .next { s with dev := d } ∧ P d

/-- As `Gives`, for a command after which the comparator, and the slot actions that waited for an engine, look at the engines
again (R67, R277): `P` states the device before they do. -/
def GivesServed (s : State) (c : Instr) (P : Dev → Prop) : Prop :=
  ∃ d : Dev, exec c s = .next { s with dev := d.settle } ∧ P d

/-- The status bit of an event (R374). -/
def Dev.ev (d : Dev) (n : Nat) : Bool := d.bit F.EVT_STAT (n / 32) (n % 32)

/-! ### Slot tables (R65) -/

/-- The rules of R65 for the 32 words of a slot table, with the shortest frame `p`, the enabled single and primary axes, and the
WCET of each axis. -/
structure TableRules (p : Nat) (ax : Nat → Prop) (wcet : Nat → Nat) (w : Nat → Word) : Prop where
  reserved : ∀ s, s < 32 → (w s).toNat < 2 ^ 28
  actions : ∀ s, s < 32 → slotAction (w s) ≤ 6
  none_ : ∀ s, s < 32 → slotAction (w s) = 0 → slotOffset (w s) = 0 ∧ slotMask (w s) = 0
  range : ∀ s, s < 32 → slotAction (w s) ≠ 0 → 1 ≤ slotOffset (w s) ∧ slotOffset (w s) < p
  axes : ∀ s k, s < 32 → slotAction (w s) = 1 ∨ slotAction (w s) = 2 → (slotMask (w s)).testBit k = true → k < 8 ∧ ax k
  masks : ∀ s, s < 32 → (slotAction (w s) = 5 → slotMask (w s) < 16) ∧
    (slotAction (w s) = 3 ∨ slotAction (w s) = 4 ∨ slotAction (w s) = 6 → slotMask (w s) = 0)
  order : ∀ i j, i < j → j < 32 → slotAction (w i) ≠ 0 → slotAction (w j) ≠ 0 → slotOffset (w i) ≤ slotOffset (w j)
  single : ∀ c, c = 3 ∨ c = 4 → ∃ s, s < 32 ∧ slotAction (w s) = c ∧ ∀ j, j < 32 → slotAction (w j) = c → j = s
  named : ∀ c k, c = 1 ∨ c = 2 → k < 8 → ax k → ∃ s, s < 32 ∧ slotAction (w s) = c ∧ (slotMask (w s)).testBit k = true ∧
    ∀ j, j < 32 → slotAction (w j) = c → (slotMask (w j)).testBit k = true → j = s
  spacing : ∀ i j, i < 32 → j < 32 → slotAction (w i) = 3 → slotAction (w j) = 1 → slotOffset (w i) + 1280 ≤ slotOffset (w j)
  deadline : ∀ s k, s < 32 → slotAction (w s) = 1 → (slotMask (w s)).testBit k = true → slotOffset (w s) + wcet k + 64 < p
  ckpt : ∀ i j k, i < 32 → j < 32 → slotAction (w i) = 1 → slotAction (w j) = 2 → (slotMask (w i)).testBit k = true →
    (slotMask (w j)).testBit k = true → slotOffset (w i) + wcet k + 64 ≤ slotOffset (w j)

/-! ### Resets (R412 to R416) -/

/-- From `a` to `b` the control-die logic has gone into reset with this cause: every register but DIE_RSTC and the count of
Vent-die resets at its reset value, no run, no seal. A power-on reset clears the retention domain; every other keeps the journal,
without a transaction whose reservation was open, and Caldera banks M14 and M15 with the errors that stand in them; no request
and no reservation is left. The Vent die keeps its configuration and the states of its axes. A burst of the host port that the
reset meets is dead, and one that a reset met before stays so. -/
structure ResetFrom (a b : Dev) (cause : Nat) : Prop where
  inReset : b.awake = false
  closed : b.sys.sealed = false ∧ b.sys.portUp = false ∧ b.sys.calInit = true ∧ b.clk.ticked = false
  regs : ∀ x, x ≠ F.DIE_RSTC.at_ 0 → x ≠ F.VNT_STAT.at_ 0 → b.reg x = regReset x
  ventResets : b.get F.VNT_STAT_RSTCNT = if cause = 0 then 0 else a.get F.VNT_STAT_RSTCNT
  why : b.get F.DIE_RSTC_CAUSE = cause ∧ b.flag F.DIE_RSTC_RETLOST = decide (cause = 0)
  warm : b.get F.DIE_RSTC_WARM =
    if cause = 0 then 0 else min (a.get F.DIE_RSTC_WARM + if cause ≤ 3 then 1 else 0) 255
  wdog : b.get F.DIE_RSTC_WDOG =
    if cause = 0 then 0 else min (a.get F.DIE_RSTC_WDOG + if 4 ≤ cause then 1 else 0) 255
  engines : b.engs = []
  link : b.link = { linkdown := cause == 1 || decide (4 ≤ cause) }
  vent : b.vent.axes = a.vent.axes ∧ b.vent.cfg = a.vent.cfg ∧ b.vent.inReset = a.vent.inReset
  powerOn : cause = 0 → b.jnl = {} ∧ b.con.mem = [] ∧ b.sys.retDigest = none
  journal : cause ≠ 0 → b.jnl.retained = a.jnl.undo.getD a.jnl.retained ∧ b.sys.retDigest = a.sys.retDigest
  caldera : cause ≠ 0 → Memory.wf a.con.mem = true → ∀ x, b.cal x = if x < calAddr 14 0 then 0 else a.cal x
  errors : cause ≠ 0 → ∀ x, (x ∈ b.con.bad ↔ x ∈ a.con.bad ∧ calAddr 14 0 ≤ x) ∧ (x ∈ b.con.wb ↔ x ∈ a.con.wb ∧ calAddr 14 0 ≤ x)
  requests : b.con.queues = [] ∧ b.con.resv = []
  burst : b.host.burst = a.host.burst ∧ b.host.dead = (a.host.dead || a.host.burst.isSome)
  stopped : b.wdn.lserr = (cause == 4 || a.wdn.stopped) ∧ b.wdn.stopped = false

/-! ### Engines -/

/-- The run of engine `e`. -/
def Dev.run (d : Dev) (e : Nat) : EngRun := (d.eng e).run

/-- The engine that `i` names can issue it now: a run is going, its program counter lies in the program, no source waits
for a far load, and the fetch is clean (R178, R180, R193). -/
structure Ready (d : Dev) (i : Issue) (srcs : List Nat) : Prop where
  awake : d.awake = true
  live : (d.run i.eng).live = true
  waits : srcs.any (d.run i.eng).waits = false
  inCode : (d.run i.eng).pc < (d.runProg i.eng).codeN
  fetch : i.fetch = .ok

/-- The word at the program counter of the engine is that of command `c` with the fields of `i` (R201), and cycle `t` of the run
is no later than its deadline (R181, R230). -/
def Fetched (d : Dev) (c : Instr) (i : Issue) (t : Nat) : Prop :=
  d.pword i.eng = i.word (opcodeOf c) ∧ t ≤ d.deadlineIn i.eng

/-- From `a` to `b` one instruction of engine `e` has retired: nothing but its run has changed, and of the run only the
listed W registers, flags, accumulators and pointers, the program counter with the loop state, and the cycles used. -/
structure RunStep (a b : Dev) (e : Nat) (ws fs zs ps : List Nat) (cyc : Nat) : Prop where
  dev : b = { a with engs := b.engs }
  others : ∀ j, j ≠ e → b.eng j = a.eng j
  unit : b.eng e = { a.eng e with run := b.run e }
  regs : ∀ n, n ∉ ws → (b.run e).W n = (a.run e).W n
  flags : ∀ n, n < 16 → n ∉ fs → (b.run e).flag n = (a.run e).flag n
  accs : ∀ n, n < 2 → n ∉ zs → (b.run e).Z n = (a.run e).Z n
  ptrs : ∀ n, n ∉ ps → (b.run e).P n = (a.run e).P n
  cycles : (b.run e).cyc = cyc
  rest : b.run e = { a.run e with
    w := (b.run e).w, flags := (b.run e).flags, z0 := (b.run e).z0, z1 := (b.run e).z1, p := (b.run e).p
    pc := (b.run e).pc, lc := (b.run e).lc, loop := (b.run e).loop, cyc := (b.run e).cyc }

/-- From `a` to `b` nothing but the run of engine `e` has changed. -/
structure EngineOnly (a b : Dev) (e : Nat) : Prop where
  dev : b = { a with engs := b.engs }
  others : ∀ j, j ≠ e → b.eng j = a.eng j
  unit : b.eng e = { a.eng e with run := b.run e }

/-- The loop after a transfer of control to `t` at the stack `st`: one that is left at its own depth ends (R210). -/
def EngRun.loopAfter (r : EngRun) (t : Nat) (st : List Nat) : Option Loop :=
  match r.loop with
  | none => none
  | some l => if st.length = l.depth ∧ ¬(l.start ≤ t ∧ t ≤ l.stop) then none else some l

/-- The instruction at the end address of the active loop, executed at the loop depth (R210). -/
def EngRun.atEnd (r : EngRun) : Bool :=
  match r.loop with
  | none => false
  | some l => r.pc == l.stop && r.stack.length == l.depth

/-- Where a run goes on after an instruction that does not transfer control, with `n` in LC as the end test finds it: the
next address, or the body's start while passes remain (R210). -/
structure SeqStep (a b : EngRun) (n : Nat) : Prop where
  plain : a.atEnd = false → b.pc = a.pc + 1 ∧ b.lc = n ∧ b.loop = a.loop
  again : ∀ l, a.loop = some l → a.atEnd = true → 1 < n → b.pc = l.start ∧ b.lc = n - 1 ∧ b.loop = a.loop
  last : a.atEnd = true → n ≤ 1 → b.pc = a.pc + 1 ∧ b.lc = 0 ∧ b.loop = none

/-- Command `c` issues instruction `i` whose word stands at the program counter, and it retires, before the deadline, after `n`
cycles of the issue stage: a next state with nothing but the run changed (`RunStep`), the run going on in sequence
(`SeqStep`), and the results that `res` states of the run before and after. The comparator, and a slot action that waited for
an engine, look at the run afterwards (R67, R277). -/
def Retires (s : State) (c : Instr) (i : Issue) (srcs ws fs zs ps : List Nat) (n : Nat) (res : EngRun → EngRun → Prop) :
    Prop :=
  Fetched s.dev c i ((s.dev.run i.eng).issueAt srcs + n) →
  ∃ d : Dev, exec c s = .next { s with dev := d.settle } ∧
    RunStep s.dev d i.eng ws fs zs ps ((s.dev.run i.eng).issueAt srcs + n) ∧
    SeqStep (s.dev.run i.eng) (d.run i.eng) (s.dev.run i.eng).lc ∧
    res (s.dev.run i.eng) (d.run i.eng)

/-- As `Retires`, for an instruction that works on more than its run: `base` is the state with that done. -/
def RetiresOn (s : State) (base : Dev) (c : Instr) (i : Issue) (srcs ws fs zs ps : List Nat) (n : Nat)
    (res : EngRun → EngRun → Prop) : Prop :=
  Fetched s.dev c i ((s.dev.run i.eng).issueAt srcs + n) →
  ∃ d : Dev, exec c s = .next { s with dev := d.settle } ∧
    RunStep base d i.eng ws fs zs ps ((s.dev.run i.eng).issueAt srcs + n) ∧
    SeqStep (s.dev.run i.eng) (d.run i.eng) (s.dev.run i.eng).lc ∧
    res (s.dev.run i.eng) (d.run i.eng)

/-- Command `c` issues, before the deadline, an instruction whose word stands at the program counter and whose fields break a
rule of chapter 10: the run ends with cause OPCODE (R180, R202). -/
def EndsOpcode (s : State) (c : Instr) (i : Issue) (srcs : List Nat) : Prop :=
  Fetched s.dev c i ((s.dev.run i.eng).issueAt srcs + 1) →
  exec c s = .next { s with dev := (s.dev.overrun i.eng 3).settle }

/-- A register with the flags Z and N that the value written to it sets (R207). -/
def EngRun.holdsZN (r : EngRun) (n : Nat) (v : Word) : Prop :=
  r.W n = v ∧ r.flag fZ = decide (v = 0#40) ∧ r.flag fN = v.getLsbD 39

/-- The flags C and V. -/
def EngRun.holdsCV (r : EngRun) (c v : Bool) : Prop := r.flag fC = c ∧ r.flag fV = v

/-- The P32 word of an exact value: the nearer end of the range outside it (R3, sat of chapter 10). -/
def satWord (x : Int) : Word := BitVec.ofInt 40 (max p32Min (min p32Max x))

/-- An exact value outside the P32 range (R3). -/
def outP32 (x : Int) : Bool := decide (x < p32Min ∨ p32Max < x)

/-- V=s (R204, R207): V says whether the instruction clamped, and SAT keeps every clamp. -/
def EngRun.clampedVs (r old : EngRun) (c : Bool) : Prop := r.flag fV = c ∧ r.flag fSat = (old.flag fSat || c)

end Sys2Proof.Machine
end

