-- ==== Sys2Proof/Certificates/Slice0/Obligations.lean ====
section
/-! DEFINITION. The statements for the provers, by the chapters whose rules they say. A statement that rests on a choice of
the model names its entry in the log. -/

open Sys2Proof Sys2Proof.Machine

/-! ### Magma engines: arithmetic (chapter 10) -/

/-- R216: ADD, SUB and ADDI on a ready engine retire in one cycle and wrap. C is the carry out of bit 39, or the borrow
of SUB; V says that the exact result leaves 40 bits. Only Wd and the flags Z, N, C and V change. -/
def Obligations.IntegerInstructionsWrap : Prop :=
  ∀ (s : State) (i : Issue),
    (Ready s.dev i [i.an, i.bn] → i.x = 0 →
      Retires s (.add i) i [i.an, i.bn] [i.dn] [fZ, fN, fC, fV] [] [] 1 (fun a b =>
        b.holdsZN i.dn (a.W i.an + a.W i.bn) ∧
        b.holdsCV (decide (2 ^ 40 ≤ (a.W i.an).toNat + (a.W i.bn).toNat))
          (decide ((a.W i.an).toInt + (a.W i.bn).toInt < -(2 ^ 39) ∨ 2 ^ 39 ≤ (a.W i.an).toInt + (a.W i.bn).toInt))) ∧
      Retires s (.sub i) i [i.an, i.bn] [i.dn] [fZ, fN, fC, fV] [] [] 1 (fun a b =>
        b.holdsZN i.dn (a.W i.an - a.W i.bn) ∧
        b.holdsCV (decide ((a.W i.an).toNat < (a.W i.bn).toNat))
          (decide ((a.W i.an).toInt - (a.W i.bn).toInt < -(2 ^ 39) ∨ 2 ^ 39 ≤ (a.W i.an).toInt - (a.W i.bn).toInt)))) ∧
    (Ready s.dev i [i.an] → i.b = 0 →
      Retires s (.addi i) i [i.an] [i.dn] [fZ, fN, fC, fV] [] [] 1 (fun a b =>
        b.holdsZN i.dn (a.W i.an + i.x.signExtend 40) ∧
        b.holdsCV (decide (2 ^ 40 ≤ (a.W i.an).toNat + (i.x.signExtend 40).toNat))
          (decide ((a.W i.an).toInt + i.x.toInt < -(2 ^ 39) ∨ 2 ^ 39 ≤ (a.W i.an).toInt + i.x.toInt))))

/-- R217: MIN, MAX, CLAMP and CMP compare signed 40-bit values. R217: ADDS, SUBS, NEGS and SATP compute exactly and clamp
to the P32 range, with V and SAT on a clamp. -/
def Obligations.CompareAndSaturate : Prop :=
  (∀ (s : State) (i : Issue), Ready s.dev i [i.an, i.bn] → i.x = 0 →
     Retires s (.min_ i) i [i.an, i.bn] [i.dn] [fZ, fN, fC, fV] [] [] 1 (fun a b =>
       b.holdsZN i.dn (b.W i.dn) ∧ (b.W i.dn).toInt = min (a.WI i.an) (a.WI i.bn) ∧ b.holdsCV false false) ∧
     Retires s (.max_ i) i [i.an, i.bn] [i.dn] [fZ, fN, fC, fV] [] [] 1 (fun a b =>
       b.holdsZN i.dn (b.W i.dn) ∧ (b.W i.dn).toInt = max (a.WI i.an) (a.WI i.bn) ∧ b.holdsCV false false) ∧
     Retires s (.clamp i) i [i.an, i.bn] [i.dn] [fZ, fN, fC, fV, fSat] [] [] 1 (fun a b =>
       let l := max (a.WI i.bn) 0
       b.holdsZN i.dn (b.W i.dn) ∧ (b.W i.dn).toInt = max (-l) (min l (a.WI i.an)) ∧ b.flag fC = false ∧
         b.clampedVs a (decide (a.WI i.an < -l ∨ l < a.WI i.an))) ∧
     (i.d = 0 →
       Retires s (.cmp i) i [i.an, i.bn] [] [fZ, fN, fC, fV] [] [] 1 (fun a b =>
         b.flag fZ = decide (a.W i.an = a.W i.bn) ∧ b.flag fN = decide (a.WI i.an < a.WI i.bn) ∧
         b.holdsCV (decide ((a.W i.an).toNat < (a.W i.bn).toNat)) false))) ∧
  (∀ (s : State) (i : Issue),
     (Ready s.dev i [i.an, i.bn] → i.x = 0 →
       Retires s (.adds i) i [i.an, i.bn] [i.dn] [fZ, fN, fC, fV, fSat] [] [] 1 (fun a b =>
         b.holdsZN i.dn (satWord (a.WI i.an + a.WI i.bn)) ∧
         b.flag fC = decide (2 ^ 40 ≤ (a.W i.an).toNat + (a.W i.bn).toNat) ∧
         b.clampedVs a (outP32 (a.WI i.an + a.WI i.bn))) ∧
       Retires s (.subs i) i [i.an, i.bn] [i.dn] [fZ, fN, fC, fV, fSat] [] [] 1 (fun a b =>
         b.holdsZN i.dn (satWord (a.WI i.an - a.WI i.bn)) ∧
         b.flag fC = decide ((a.W i.an).toNat < (a.W i.bn).toNat) ∧
         b.clampedVs a (outP32 (a.WI i.an - a.WI i.bn)))) ∧
     (Ready s.dev i [i.an] → i.x = 0 → i.b = 0 →
       Retires s (.negs i) i [i.an] [i.dn] [fZ, fN, fC, fV, fSat] [] [] 1 (fun a b =>
         b.holdsZN i.dn (satWord (-a.WI i.an)) ∧ b.flag fC = false ∧
         b.clampedVs a (outP32 (-a.WI i.an))) ∧
       Retires s (.satp i) i [i.an] [i.dn] [fZ, fN, fC, fV, fSat] [] [] 1 (fun a b =>
         b.holdsZN i.dn (satWord (a.WI i.an)) ∧ b.flag fC = false ∧
         b.clampedVs a (outP32 (a.WI i.an)))))

/-- R218: products are exact. MULS rounds at bit 31 and clamps; MUL, MAC and ZLD write an 88-bit accumulator; ZRD reads
one, scaled, rounded and clamped. R221: one step of restoring division on the pair Wd, Wd+1 with the divisor Wb, all read
as unsigned. -/
def Obligations.MultiplyAccumulateDivide : Prop :=
  (∀ (s : State) (i : Issue),
     (Ready s.dev i [i.an, i.bn] → i.x = 0 →
       Retires s (.muls i) i [i.an, i.bn] [i.dn] [fZ, fN, fC, fV, fSat] [] [] 1 (fun a b =>
         let x := (a.WI i.an * a.WI i.bn + 2 ^ 30) / 2 ^ 31
         b.holdsZN i.dn (satWord x) ∧ b.flag fC = false ∧ b.clampedVs a (outP32 x))) ∧
     (∀ neg : Bool, Ready s.dev i [i.an, i.bn] → i.d.val < 2 → i.x = (if neg then 1 else 0) →
       Retires s (.mul i) i [i.an, i.bn] [] [fV] [i.dn] [] 1 (fun a b =>
         let p := a.WI i.an * a.WI i.bn
         (b.Z i.dn).toInt = (if neg then -p else p) ∧ b.flag fV = false) ∧
       Retires s (.mac i) i [i.an, i.bn] [] [fV] [i.dn] [] 1 (fun a b =>
         let p := a.WI i.an * a.WI i.bn
         let x := (a.Z i.dn).toInt + (if neg then -p else p)
         b.Z i.dn = BitVec.ofInt 88 x ∧ b.flag fV = decide (x < -(2 ^ 87) ∨ 2 ^ 87 ≤ x))) ∧
     (∀ sh : Nat, sh < 16 → Ready s.dev i [] → i.a.val < 2 → i.b = 0 → i.x = BitVec.ofNat 22 sh →
       Retires s (.zrd i) i [] [i.dn] [fZ, fN, fC, fV, fSat] [] [] 1 (fun a b =>
         let x := ((a.Z i.an).toInt * 2 ^ sh + 2 ^ 30) / 2 ^ 31
         b.holdsZN i.dn (satWord x) ∧ b.flag fC = false ∧ b.clampedVs a (outP32 x))) ∧
     (Ready s.dev i [i.an] → i.d.val < 2 → i.b = 0 → i.x = 0 →
       Retires s (.zld i) i [i.an] [] [] [i.dn] [] 1 (fun a b => (b.Z i.dn).toInt = a.WI i.an * 2 ^ 31))) ∧
  (∀ (s : State) (i : Issue), Ready s.dev i [i.dn, i.dn + 1, i.bn] → i.d.val % 2 = 0 → i.a = 0 → i.x = 0 →
     Retires s (.divstep i) i [i.dn, i.dn + 1, i.bn] [i.dn, i.dn + 1] [fC, fV] [] [] 1 (fun a b =>
       let r := (a.W i.dn).toNat
       let q := (a.W (i.dn + 1)).toNat
       let n := (a.W i.bn).toNat
       let r2 := 2 * r % 2 ^ 40
       let q2 := 2 * q % 2 ^ 40
       b.flag fV = decide (n ≤ r) ∧ b.flag fC = decide (n ≤ r2) ∧
       (b.W i.dn).toNat = (if n ≤ r2 then r2 - n else r2) ∧
       (b.W (i.dn + 1)).toNat = (if n ≤ r2 then q2 + 1 else q2)))

/-- R219: AND, OR and XOR combine Wa bit by bit with Wb, or with X[20:0] when X[21] is 1 and B is 0. R220: SHL, SHR and
SAR shift Wa by a count of 0 to 63, from Wb[5:0] or from X[5:0]. C is the last bit shifted out, the sign once SAR has
shifted every bit out, and 0 for a count of 0. -/
def Obligations.LogicAndShifts : Prop :=
  (∀ (s : State) (i : Issue),
     (Ready s.dev i [i.an, i.bn] → i.x = 0 →
       Retires s (.and_ i) i [i.an, i.bn] [i.dn] [fZ, fN, fC, fV] [] [] 1 (fun a b =>
         b.holdsZN i.dn (a.W i.an &&& a.W i.bn) ∧ b.holdsCV false false) ∧
       Retires s (.or_ i) i [i.an, i.bn] [i.dn] [fZ, fN, fC, fV] [] [] 1 (fun a b =>
         b.holdsZN i.dn (a.W i.an ||| a.W i.bn) ∧ b.holdsCV false false) ∧
       Retires s (.xor_ i) i [i.an, i.bn] [i.dn] [fZ, fN, fC, fV] [] [] 1 (fun a b =>
         b.holdsZN i.dn (a.W i.an ^^^ a.W i.bn) ∧ b.holdsCV false false)) ∧
     (Ready s.dev i [i.an] → i.x.getLsbD 21 = true → i.b = 0 →
       Retires s (.and_ i) i [i.an] [i.dn] [fZ, fN, fC, fV] [] [] 1 (fun a b =>
         b.holdsZN i.dn (a.W i.an &&& (i.x.extractLsb' 0 21).zeroExtend 40) ∧ b.holdsCV false false) ∧
       Retires s (.or_ i) i [i.an] [i.dn] [fZ, fN, fC, fV] [] [] 1 (fun a b =>
         b.holdsZN i.dn (a.W i.an ||| (i.x.extractLsb' 0 21).zeroExtend 40) ∧ b.holdsCV false false) ∧
       Retires s (.xor_ i) i [i.an] [i.dn] [fZ, fN, fC, fV] [] [] 1 (fun a b =>
         b.holdsZN i.dn (a.W i.an ^^^ (i.x.extractLsb' 0 21).zeroExtend 40) ∧ b.holdsCV false false)) ∧
     (Ready s.dev i [i.an] → i.x.getLsbD 21 = true → i.b ≠ 0 →
       EndsOpcode s (.and_ i) i [i.an] ∧ EndsOpcode s (.or_ i) i [i.an] ∧ EndsOpcode s (.xor_ i) i [i.an])) ∧
  (∀ (s : State) (i : Issue),
     (∀ (k : Nat) (srcs : List Nat), k < 64 → Ready s.dev i srcs →
       (srcs = [i.an, i.bn] ∧ i.x = 0 ∧ ((s.dev.run i.eng).W i.bn).toNat % 64 = k ∨
         srcs = [i.an] ∧ i.b = 0 ∧ i.x.getLsbD 21 = true ∧ i.x.extractLsb' 6 15 = 0 ∧ (i.x.extractLsb' 0 6).toNat = k) →
       Retires s (.shl i) i srcs [i.dn] [fZ, fN, fC, fV] [] [] 1 (fun a b =>
         b.holdsZN i.dn (BitVec.ofNat 40 ((a.W i.an).toNat * 2 ^ k)) ∧
         b.holdsCV (decide (1 ≤ k ∧ k ≤ 40) && (a.W i.an).getLsbD (40 - k)) false) ∧
       Retires s (.shr i) i srcs [i.dn] [fZ, fN, fC, fV] [] [] 1 (fun a b =>
         b.holdsZN i.dn (BitVec.ofNat 40 ((a.W i.an).toNat / 2 ^ k)) ∧
         b.holdsCV (decide (1 ≤ k ∧ k ≤ 40) && (a.W i.an).getLsbD (k - 1)) false) ∧
       Retires s (.sar i) i srcs [i.dn] [fZ, fN, fC, fV] [] [] 1 (fun a b =>
         b.holdsZN i.dn (BitVec.ofInt 40 ((a.WI i.an) / 2 ^ k)) ∧
         b.holdsCV (decide (1 ≤ k) && (a.W i.an).getLsbD (min (k - 1) 39)) false)) ∧
     (Ready s.dev i [i.an] → i.x.getLsbD 21 = true → i.b ≠ 0 ∨ i.x.extractLsb' 6 15 ≠ 0 →
       EndsOpcode s (.shl i) i [i.an] ∧ EndsOpcode s (.shr i) i [i.an] ∧ EndsOpcode s (.sar i) i [i.an]))

/-- R212 and R213: MOV, LDI, LDIH and PSET write as the table says, and an LDIH with a bit of X[21:18] set ends the run.
GETS and PUTS reach pointers, LC, the flag word and the accumulators; a high word of an accumulator is sign-extended
through its guard bits, and the selectors 10 to 15 end the run with cause OPCODE. -/
def Obligations.MovesAndSpecialRegisters : Prop :=
  (∀ (s : State) (i : Issue),
     (Ready s.dev i [i.an] → i.b = 0 → i.x = 0 →
       Retires s (.mov i) i [i.an] [i.dn] [] [] [] 1 (fun a b => b.W i.dn = a.W i.an)) ∧
     (Ready s.dev i [] → i.a = 0 → i.b = 0 →
       Retires s (.ldi i) i [] [i.dn] [] [] [] 1 (fun _ b => b.W i.dn = i.x.signExtend 40)) ∧
     (∀ imm : BitVec 18, Ready s.dev i [i.dn] → i.a = 0 → i.b = 0 → i.x = imm.zeroExtend 22 →
       Retires s (.ldih i) i [i.dn] [i.dn] [] [] [] 1 (fun a b =>
         b.W i.dn = imm ++ (a.W i.dn).extractLsb' 0 22)) ∧
     (∀ v : BitVec 16, Ready s.dev i [] → i.d.val < 4 → i.a = 0 → i.b = 0 → i.x = v.zeroExtend 22 →
       Retires s (.pset i) i [] [] [] [] [i.dn] 1 (fun _ b => b.P i.dn = v.toNat)) ∧
     (Ready s.dev i [i.dn] → (i.x.toNat < 2 ^ 18 → i.a ≠ 0 ∨ i.b ≠ 0) → EndsOpcode s (.ldih i) i [i.dn])) ∧
  (∀ (s : State) (i : Issue),
     (∀ sel : Nat, sel < 10 → Ready s.dev i [] → i.a = 0 → i.b = 0 → i.x = BitVec.ofNat 22 sel →
       Retires s (.gets i) i [] [i.dn] [] [] [] 1 (fun a b =>
         (sel < 4 → b.W i.dn = BitVec.ofNat 40 (a.P sel)) ∧
         (sel = 4 → b.W i.dn = BitVec.ofNat 40 a.lc) ∧
         (sel = 5 → b.W i.dn = a.flags.zeroExtend 40) ∧
         (sel = 6 → b.W i.dn = (a.Z 0).extractLsb' 0 40) ∧
         (sel = 7 → b.W i.dn = (a.Z 0).extractLsb' 40 40) ∧
         (sel = 8 → b.W i.dn = (a.Z 1).extractLsb' 0 40) ∧
         (sel = 9 → b.W i.dn = (a.Z 1).extractLsb' 40 40))) ∧
     (∀ sel : Nat, sel < 16 → 10 ≤ sel → i.x = BitVec.ofNat 22 sel →
       (Ready s.dev i [] → EndsOpcode s (.gets i) i []) ∧ (Ready s.dev i [i.an] → EndsOpcode s (.puts i) i [i.an]))) ∧
  (∀ (s : State) (i : Issue), Ready s.dev i [i.an] → i.d = 0 → i.b = 0 →
     (∀ n, n < 4 → i.x = BitVec.ofNat 22 n → Retires s (.puts i) i [i.an] [] [] [] [n] 1 (fun a b =>
       b.P n = (a.W i.an).toNat % 2 ^ 16)) ∧
     (i.x = 4 → Fetched s.dev (.puts i) i ((s.dev.run i.eng).issueAt [i.an] + 1) →
       ∃ d, exec (.puts i) s = .next { s with dev := d.settle } ∧
       RunStep s.dev d i.eng [] [] [] [] ((s.dev.run i.eng).issueAt [i.an] + 1) ∧
       SeqStep (s.dev.run i.eng) (d.run i.eng) (((s.dev.run i.eng).W i.an).toNat % 2 ^ 16)) ∧
     (i.x = 5 → Retires s (.puts i) i [i.an] [] [fZ, fN, fC, fV] [] [] 1 (fun a b =>
       b.flag fZ = (a.W i.an).getLsbD 0 ∧ b.flag fN = (a.W i.an).getLsbD 1 ∧ b.flag fC = (a.W i.an).getLsbD 2 ∧
       b.flag fV = (a.W i.an).getLsbD 3)) ∧
     (∀ z, z < 2 → i.x = BitVec.ofNat 22 (6 + 2 * z) → Retires s (.puts i) i [i.an] [] [] [z] [] 1 (fun a b =>
       b.Z z = (a.Z z).extractLsb' 40 48 ++ a.W i.an)) ∧
     (∀ z, z < 2 → i.x = BitVec.ofNat 22 (7 + 2 * z) → Retires s (.puts i) i [i.an] [] [] [z] [] 1 (fun a b =>
       b.Z z = (a.W i.an).signExtend 48 ++ (a.Z z).extractLsb' 0 40)))

/-- R222 and R223: TRIG and ATAN2 follow the 32 iterations of the CORDIC pseudocode, with T[i], KX and KQ of chapter 10.
The model's choice (log entry 44) is the pseudocode for every vector but 0, where R223's sentence for y > 0 and x = 0 names
the exact angle.
-/
def Obligations.CordicInstructions : Prop :=
  ∀ (s : State) (i : Issue),
    (Ready s.dev i [i.an] → i.d.val % 2 = 0 → i.b = 0 → i.x = 0 →
      Retires s (.trig i) i [i.an] [i.dn, i.dn + 1] [fV, fSat] [] [] 18 (fun a b =>
        ∃ x y z : Nat → Int, x 0 = kX ∧ y 0 = 0 ∧ z 0 = ((a.W i.an).toNat % 2 ^ 30 : Nat) ∧
          (∀ n, n < 32 →
            if 0 ≤ z n then
              x (n + 1) = x n - y n / 2 ^ n ∧ y (n + 1) = y n + x n / 2 ^ n ∧ z (n + 1) = z n - (cordicT.getD n 0 : Nat)
            else
              x (n + 1) = x n + y n / 2 ^ n ∧ y (n + 1) = y n - x n / 2 ^ n ∧ z (n + 1) = z n + (cordicT.getD n 0 : Nat)) ∧
          let xr := (x 32 + 2 ^ 7) / 2 ^ 8
          let yr := (y 32 + 2 ^ 7) / 2 ^ 8
          let quad := (a.W i.an).toNat / 2 ^ 30 % 4
          let sn := if quad = 0 then yr else if quad = 1 then xr else if quad = 2 then -yr else -xr
          let cs := if quad = 0 then xr else if quad = 1 then -yr else if quad = 2 then -xr else yr
          b.W i.dn = satWord sn ∧ b.W (i.dn + 1) = satWord cs ∧ b.clampedVs a (outP32 sn || outP32 cs))) ∧
    (Ready s.dev i [i.an, i.bn] → i.d.val % 2 = 0 → i.x = 0 →
      Retires s (.atan2 i) i [i.an, i.bn] [i.dn, i.dn + 1] [fV, fSat] [] [] 18 (fun a b =>
        (a.W i.an = 0 → a.W i.bn = 0 → b.W i.dn = 0 ∧ b.W (i.dn + 1) = 0 ∧ b.clampedVs a false) ∧
        (a.W i.an ≠ 0 ∨ a.W i.bn ≠ 0 → ∃ x y z : Nat → Int,
          x 0 = |a.WI i.bn| * 2 ^ 8 ∧ y 0 = (if a.WI i.bn < 0 then -a.WI i.an else a.WI i.an) * 2 ^ 8 ∧
          z 0 = (if a.WI i.bn < 0 then 2 ^ 31 else 0) ∧
          (∀ n, n < 32 →
            if 0 ≤ y n then
              x (n + 1) = x n + y n / 2 ^ n ∧ y (n + 1) = y n - x n / 2 ^ n ∧ z (n + 1) = z n + (cordicT.getD n 0 : Nat)
            else
              x (n + 1) = x n - y n / 2 ^ n ∧ y (n + 1) = y n + x n / 2 ^ n ∧ z (n + 1) = z n - (cordicT.getD n 0 : Nat)) ∧
          let m := (x 32 * kQ + 2 ^ 38) / 2 ^ 39
          ((b.W i.dn).toNat : Int) = z 32 % 2 ^ 32 ∧ b.W (i.dn + 1) = satWord m ∧ b.clampedVs a (outP32 m))))

/-- R224 and R225: CLARKE with two and with three inputs; PARK and IPARK turn by the angle in Wb, whose sine and cosine
are those that TRIG gives. R226: SVM writes the three duties with min-max injection, shortened to a span of 1.0, and the
sector of the phases that hold the largest and the smallest voltage. -/
def Obligations.FrameTransformsAndSvm : Prop :=
  (∀ (s : State) (i : Issue),
     (Ready s.dev i [i.an, i.bn] → i.d.val % 2 = 0 → i.x = 0 →
       Retires s (.clarke i) i [i.an, i.bn] [i.dn, i.dn + 1] [fV, fSat] [] [] 3 (fun a b =>
         let al := a.WI i.an
         let be := ((a.WI i.an + 2 * a.WI i.bn) * k3 + 2 ^ 30) / 2 ^ 31
         b.W i.dn = satWord al ∧ b.W (i.dn + 1) = satWord be ∧ b.clampedVs a (outP32 al || outP32 be))) ∧
     (Ready s.dev i [i.an, i.bn, i.bn + 1] → i.d.val % 2 = 0 → i.b.val < 15 → i.x = 1 →
       Retires s (.clarke i) i [i.an, i.bn, i.bn + 1] [i.dn, i.dn + 1] [fV, fSat] [] [] 3 (fun a b =>
         let al := ((2 * a.WI i.an - a.WI i.bn - a.WI (i.bn + 1)) * k13 + 2 ^ 30) / 2 ^ 31
         let be := ((a.WI i.bn - a.WI (i.bn + 1)) * k3 + 2 ^ 30) / 2 ^ 31
         b.W i.dn = satWord al ∧ b.W (i.dn + 1) = satWord be ∧ b.clampedVs a (outP32 al || outP32 be))) ∧
     (Ready s.dev i [i.an, i.an + 1, i.bn] → i.d.val % 2 = 0 → i.a.val % 2 = 0 → i.x = 0 →
       Retires s (.park i) i [i.an, i.an + 1, i.bn] [i.dn, i.dn + 1] [fV, fSat] [] [] 20 (fun a b =>
         let t := trig (a.W i.bn)
         let p := (a.WI i.an * t.2.1 + a.WI (i.an + 1) * t.1.1 + 2 ^ 30) / 2 ^ 31
         let q := (a.WI (i.an + 1) * t.2.1 - a.WI i.an * t.1.1 + 2 ^ 30) / 2 ^ 31
         b.W i.dn = satWord p ∧ b.W (i.dn + 1) = satWord q ∧
           b.clampedVs a (outP32 p || outP32 q || (t.1.2 || t.2.2))) ∧
       Retires s (.ipark i) i [i.an, i.an + 1, i.bn] [i.dn, i.dn + 1] [fV, fSat] [] [] 20 (fun a b =>
         let t := trig (a.W i.bn)
         let p := (a.WI i.an * t.2.1 - a.WI (i.an + 1) * t.1.1 + 2 ^ 30) / 2 ^ 31
         let q := (a.WI i.an * t.1.1 + a.WI (i.an + 1) * t.2.1 + 2 ^ 30) / 2 ^ 31
         b.W i.dn = satWord p ∧ b.W (i.dn + 1) = satWord q ∧
           b.clampedVs a (outP32 p || outP32 q || (t.1.2 || t.2.2))))) ∧
  (∀ (s : State) (i : Issue), Ready s.dev i [i.an, i.an + 1] → i.d.val % 4 = 0 → i.a.val % 2 = 0 → i.b = 0 → i.x = 0 →
     Retires s (.svm i) i [i.an, i.an + 1] [i.dn, i.dn + 1, i.dn + 2, i.dn + 3] [fV, fSat] [] [] 10 (fun a b =>
       let al := a.WI i.an
       let be := a.WI (i.an + 1)
       let vb := (-al * 2 ^ 30 + be * kS + 2 ^ 30) / 2 ^ 31
       let vc := (-al * 2 ^ 30 - be * kS + 2 ^ 30) / 2 ^ 31
       let span := max al (max vb vc) - min al (min vb vc)
       let scaled := fun v : Int => if 2 ^ 31 < span then v * 2 ^ 31 / span else v
       let u := scaled al
       let v := scaled vb
       let w := scaled vc
       let mx := max u (max v w)
       let mn := min u (min v w)
       let off := 2 ^ 30 - (mx + mn) / 2
       let duty := fun x : Int => max 0 (min (2 ^ 31) (x + off))
       let phase := fun m : Int => if u = m then 0 else if v = m then 1 else 2
       let sector := if mx = mn then 0
         else (([[0, 6, 1], [3, 0, 2], [4, 5, 0]] : List (List Nat)).getD (phase mx) []).getD (phase mn) 0
       b.WI i.dn = duty u ∧ b.WI (i.dn + 1) = duty v ∧ b.WI (i.dn + 2) = duty w ∧ b.W (i.dn + 3) = BitVec.ofNat 40 sector ∧
       b.clampedVs a (decide (2 ^ 31 < span) || duty u != u + off || duty v != v + off || duty w != w + off)))

/-- R227: PISTEP holds the integrator while the output saturates in the direction of the error, and clamps output and
integrator to the limit. The integrator is word A + 3 of the block; a block that reaches beyond 0x0FFF gives 0, writes no
memory and is an access fault of KIND 6. -/
def Obligations.PiStep : Prop :=
  ∀ (s : State) (i : Issue), Ready s.dev i [i.an] → i.b.val < 4 → i.x.toNat < 2 ^ 12 →
    let e := i.eng.val
    let base := ((s.dev.run e).P i.bn + i.x.toNat) % 65536
    let cyc := (s.dev.run e).issueAt [i.an] + 6
    Fetched s.dev (.pistep i) i cyc →
    (base + 3 ≤ 0xFFF → i.data = .ok → ∃ (d : Dev) (integ : Word),
      exec (.pistep i) s = .next { s with dev := d.settle } ∧
      RunStep (s.dev.setDmem e (base + 3) integ) d e [i.dn] [fV, fSat] [] [] cyc ∧
      SeqStep (s.dev.run e) (d.run e) (s.dev.run e).lc ∧
      (let word := fun j => (s.dev.dmem e (base + j)).toInt
       let clip := fun x => max p32Min (min p32Max x)
       let err := (s.dev.run e).WI i.an
       let l := max (word 2) 0
       let p := (word 0 * err + 2 ^ 30) / 2 ^ 31
       let ie := (word 1 * err + 2 ^ 30) / 2 ^ 31
       let it := word 3 + clip ie
       let u := clip p + clip it
       let hold := (l < clip u ∧ 0 < err) ∨ (clip u < -l ∧ err < 0)
       let inew := if hold then word 3 else max (-l) (min l (clip it))
       let o := clip p + inew
       integ.toInt = inew ∧ ((d.run e).W i.dn).toInt = max (-l) (min l (clip o)) ∧
       (d.run e).clampedVs (s.dev.run e) (outP32 p || outP32 ie || outP32 it || outP32 u || outP32 o ||
         decide (clip o < -l ∨ l < clip o) || (!decide hold && decide (clip it < -l ∨ l < clip it))))) ∧
    (0xFFF < base + 3 → ∃ d : Dev, exec (.pistep i) s = .next { s with dev := d.settle } ∧
      RunStep (s.dev.accessFault e 0 6) d e [i.dn] [fV] [] [] cyc ∧
      SeqStep (s.dev.run e) (d.run e) (s.dev.run e).lc ∧ (d.run e).W i.dn = 0 ∧ (d.run e).flag fV = false)

/-! ### Magma engines: control flow and the end of a run -/

/-- R208 and R209: BR goes to X[15:0] when the condition in D holds, in two cycles, and on in sequence otherwise, in one.
A taken branch at the loop depth out of the body ends the loop (R210). R209 and R210: CALL pushes the next address, RET
pops one. A fifth entry, and a RET from an empty stack, end the run with cause OPCODE. R210 and R211: LOOPI opens a loop
of `count` passes that ends at X[15:0], or goes beyond it for a count of 0. Loops do not nest, and the end lies beyond
the instruction: either breach ends the run with cause OPCODE. NOP only goes on. -/
def Obligations.ControlFlow : Prop :=
  (∀ (s : State) (i : Issue), Ready s.dev i [] → i.a = 0 → i.b = 0 → i.x.toNat < 2 ^ 16 →
     let a := s.dev.run i.eng
     let z := a.flag fZ
     let n := a.flag fN
     let taken := [true, z, !z, n, !n, !n && !z, n || z, a.flag fC, !a.flag fC, a.flag fV, !a.flag fV, a.flag fSat,
       a.flag fPv, !a.flag fPv, a.flag fFr, a.flag fImm].getD i.d.val false
     (taken = false → Retires s (.br i) i [] [] [] [] [] 1 fun _ _ => True) ∧
     (taken = true → Fetched s.dev (.br i) i (a.cyc + 2) →
       ∃ d : Dev, exec (.br i) s = .next { s with dev := d.settle } ∧ EngineOnly s.dev d i.eng ∧
       d.run i.eng = { a with pc := i.x.toNat, cyc := a.cyc + 2, loop := a.loopAfter i.x.toNat a.stack })) ∧
  (∀ (s : State) (i : Issue), Ready s.dev i [] → i.d = 0 → i.a = 0 → i.b = 0 →
     let a := s.dev.run i.eng
     (i.x.toNat < 2 ^ 16 → a.stack.length < 4 → Fetched s.dev (.call i) i (a.cyc + 2) →
       ∃ d : Dev, exec (.call i) s = .next { s with dev := d.settle } ∧ EngineOnly s.dev d i.eng ∧
         d.run i.eng = { a with pc := i.x.toNat, cyc := a.cyc + 2, stack := (a.pc + 1) :: a.stack }) ∧
     (4 ≤ a.stack.length → EndsOpcode s (.call i) i []) ∧
     (∀ t rest, i.x = 0 → a.stack = t :: rest → Fetched s.dev (.ret i) i (a.cyc + 2) →
       ∃ d : Dev, exec (.ret i) s = .next { s with dev := d.settle } ∧ EngineOnly s.dev d i.eng ∧
         let l := if a.loop.any fun l => a.stack.length == l.depth then none else a.loopAfter t rest
         d.run i.eng = { a with pc := t, cyc := a.cyc + 2, stack := rest, loop := l }) ∧
     (a.stack = [] → EndsOpcode s (.ret i) i [])) ∧
  (∀ (s : State) (i : Issue), Ready s.dev i [] → i.x.toNat < 2 ^ 16 →
     let a := s.dev.run i.eng
     let count := i.d.val * 256 + i.a.val * 16 + i.b.val
     (a.pc < i.x.toNat → a.loop = none → Fetched s.dev (.loopi i) i (a.cyc + if count = 0 then 2 else 1) →
       ∃ d : Dev, exec (.loopi i) s = .next { s with dev := d.settle } ∧ EngineOnly s.dev d i.eng ∧
       (count = 0 → d.run i.eng = { a with pc := i.x.toNat + 1, cyc := a.cyc + 2 }) ∧
       (0 < count →
         let l : Loop := { start := a.pc + 1, stop := i.x.toNat, depth := a.stack.length }
         d.run i.eng = { a with pc := a.pc + 1, cyc := a.cyc + 1, lc := count, loop := some l })) ∧
     (i.x.toNat ≤ a.pc ∨ a.loop ≠ none → EndsOpcode s (.loopi i) i []) ∧
     (i.d = 0 → i.a = 0 → i.b = 0 → i.x = 0 → Retires s (.nop i) i [] [] [] [] [] 1 fun _ _ => True))

/-- R180, R193, R211: HALT with a far access outstanding waits. Otherwise the run is complete: ENG_RUN.LAST is its length
in cycles and MAX the largest, ENG_STAT.FLAGS its flag word. A run that is not a shadow clears CONSEC, leaves its
checkpoint due, unless the comparator has found a mismatch in it (R279), and its current references in AX_IREFD and AX_IREFQ,
where it wrote them. A takeover run that wrote no duty has no interruption time: the model's choice (log entry 50). -/
def Obligations.HaltCompletesTheRun : Prop :=
  ∀ (s : State) (i : Issue), Ready s.dev i [16] → i.d = 0 → i.a = 0 → i.b = 0 → i.x = 0 →
    let e := i.eng.val
    let a := s.dev.run e
    let k := a.axis.val
    (a.far ≠ [] → s.dev.pword e = i.word 0x02 → exec (.halt i) s = .next { s with dev := s.dev.settle }) ∧
    (a.far = [] → Fetched s.dev (.halt i) i (a.issueAt [16]) → i.data = .uncorrectable →
      ∃ d : Dev, exec (.halt i) s = .next { s with dev := d.settle } ∧ (d.run e).ended = .complete ∧
      d.flag F.ENG_STAT_DECC e = true ∧ (a.kind = .shadow → d.patrol = s.dev.patrol) ∧
      (a.kind ≠ .shadow → (s.dev.servedBy e).isSome = true → (∀ t ∈ s.dev.patrol.trig, t.eng ≠ e) →
        d.patrol.trig = s.dev.patrol.trig ++ [{ eng := e, cause := 1, at_ := s.dev.clk.now }])) ∧
    (a.far = [] → Fetched s.dev (.halt i) i (a.issueAt [16]) → i.data ≠ .uncorrectable →
      ∃ d : Dev, exec (.halt i) s = .next { s with dev := d.settle } ∧
      d.get F.ENG_RUN_LAST e = min (a.issueAt [16] + 1) 65535 ∧
      d.get F.ENG_RUN_MAX e = max (min (a.issueAt [16] + 1) 65535) (s.dev.get F.ENG_RUN_MAX e) ∧
      d.get F.ENG_STAT_FLAGS e = a.flags.toNat ∧ d.flag F.ENG_STAT_IMM e = false ∧
      (d.run e).live = false ∧ (d.run e).ended = .complete ∧
      (∀ j, j ≠ e → d.eng j = s.dev.eng j) ∧ (d.eng e).dmem = (s.dev.eng e).dmem ∧ (d.eng e).pmem = (s.dev.eng e).pmem ∧
      (a.kind ≠ .shadow →
        d.get F.ENG_OVR_CONSEC e = 0 ∧ (d.eng e).ckptDue = !a.mism ∧ (d.axis k).ovr = false ∧
        (d.axis k).done = some { a.out with cl := a.flag fCl } ∧
        d.reg (F.AX_IREFD.at_ k) = (if a.irefd then uget a.ports 0x108 else s.dev.reg (F.AX_IREFD.at_ k)) ∧
        d.reg (F.AX_IREFQ.at_ k) = (if a.irefq then uget a.ports 0x109 else s.dev.reg (F.AX_IREFQ.at_ k)) ∧
        (∀ j, j ≠ k → d.axis j = s.dev.axis j) ∧
        s.dev.keepsRegs d [F.ENG_RUN.at_ e, F.ENG_STAT.at_ e, F.ENG_OVR.at_ e, F.AX_IREFD.at_ k, F.AX_IREFQ.at_ k,
          F.CON_CNT.at_ 0]) ∧
      (a.kind = .shadow → d.axes = s.dev.axes ∧
        s.dev.keepsRegs d [F.ENG_RUN.at_ e, F.ENG_STAT.at_ e, F.CON_CNT.at_ 0]) ∧
      d = { s.dev with regs := d.regs, engs := d.engs, axes := d.axes, con := d.con, patrol := d.patrol } ∧
      d.patrol = (if a.kind = .takeover then { s.dev.patrol with fresh := s.dev.patrol.fresh.filter fun x => x.1 != e }
        else s.dev.patrol) ∧
      ((∀ b, ∀ q ∈ s.dev.queue b, q.req ≠ e) → d.con = s.dev.con))

/-! ### Magma engines: memories and ports (chapters 9 and 10) -/

/-- R214: LD reads and ST writes data memory at the pointer plus the signed offset, modulo 65,536. Above 0x0FFF an LD
gives 0, an ST writes nothing, and the run has an access fault of KIND 6. The post-increment takes place in every case.
R186: an access fault sets AF, in the flag word and in ENG_STAT; the first one of a run records the program counter, the
port and the kind in ENG_AFLT and raises EV96. -/
def Obligations.LocalDataAndAccessFaults : Prop :=
  (∀ (s : State) (i : Issue), i.b.val < 4 → i.x.extractLsb' 16 5 = 0 →
     let e := i.eng.val
     let r := s.dev.run e
     let a := (((r.P i.bn : Int) + (i.x.extractLsb' 0 16).toInt) % 65536).toNat
     let ps := if i.x.getLsbD 21 then [i.bn] else []
     let inc := fun b : EngRun => i.x.getLsbD 21 = true → b.P i.bn = (r.P i.bn + 1) % 65536
     (Ready s.dev i [] → i.a = 0 →
       (a ≤ 0xFFF → i.data = .ok →
         Retires s (.ld i) i [] [i.dn] [] [] ps 1 fun _ b => b.W i.dn = s.dev.dmem e a ∧ inc b) ∧
       (0xFFF < a →
         RetiresOn s (s.dev.accessFault e 0 6) (.ld i) i [] [i.dn] [] [] ps 1 fun _ b => b.W i.dn = 0 ∧ inc b)) ∧
     (Ready s.dev i [i.an] → i.d = 0 →
       (a ≤ 0xFFF → i.data = .ok →
         let m := (s.dev.setDmem e a (r.W i.an)).modRun e fun u => u.out_ .st a (r.W i.an)
         RetiresOn s m (.st i) i [i.an] [] [] [] ps 1 (fun _ b => inc b) ∧
         ∀ x, uget (m.eng e).dmem x = if x = r.dataIdx e a then r.W i.an else uget (s.dev.eng e).dmem x) ∧
       (0xFFF < a → RetiresOn s (s.dev.accessFault e 0 6) (.st i) i [i.an] [] [] [] ps 1 fun _ b => inc b))) ∧
  (∀ (d : Dev) (e port kind : Nat), e < 10 →
     let b := d.accessFault e port kind
     b.flag F.ENG_STAT_AF e = true ∧ (b.run e).flag fAf = true ∧
     b = { d with regs := b.regs, engs := b.engs } ∧
     (∀ j, j ≠ e → b.eng j = d.eng j) ∧
     b.eng e = { d.eng e with run := { d.run e with flags := (b.run e).flags, faulted := true } } ∧
     (∀ n, n < 16 → n ≠ fAf → (b.run e).flag n = (d.run e).flag n) ∧
     ((d.run e).faulted = true → d.keepsRegs b [F.ENG_STAT.at_ e]) ∧
     ((d.run e).faulted = false →
       b.get F.ENG_AFLT_PC e = (d.run e).pc % 2 ^ F.ENG_AFLT_PC.width ∧
       b.get F.ENG_AFLT_PORT e = port % 2 ^ F.ENG_AFLT_PORT.width ∧
       b.get F.ENG_AFLT_KIND e = kind % 2 ^ F.ENG_AFLT_KIND.width ∧ b.ev 96 = true ∧
       d.keepsRegs b [F.ENG_STAT.at_ e, F.ENG_AFLT.at_ e, F.EVT_STAT.at_ 3]))

/-- R150, R185 to R188, R228: IN, RDAVG, RDPOS and RDCEIL write what the port shows, as it was latched at the tick or
copied for the frame; a port that the run may write reads the run's own last write. A port that the table does not list
gives 0 with an access fault of KIND 1. R185, R186, R228: OUT writes report registers, PEVT with its event, the control
requests and CPAGE. A value with bits that must be 0, a read-only port, and a port for WRDUTY or WRIREF are access
faults, of KIND 1 or 2, and write nothing. -/
def Obligations.EnginePorts : Prop :=
  (∀ (s : State) (i : Issue), Ready s.dev i [] → i.a = 0 → i.b = 0 →
     let e := i.eng.val
     let r := s.dev.run e
     let k := r.axis.val
     let t := s.dev.topo k
     let p := i.x.toNat
     let reads := fun (v : Word) => Retires s (.in_ i) i [] [i.dn] [] [] [] 1 fun _ b => b.W i.dn = v
     (∀ a, a < 32 → p = a → reads (s.dev.reg (F.ACC_HSUM.at_ (32 * t.pair + a)))) ∧
     (∀ a, a < 32 → p = 0x40 + a → reads (s.dev.reg (F.ACC_HCNT.at_ (32 * t.pair + a)))) ∧
     (∀ a, a < 32 → p = 0x80 + a → reads (s.dev.reg (F.ACC_HMM.at_ (32 * t.pair + a)))) ∧
     (p = 0xC0 → reads (if t.drive = 2 then s.dev.reg (F.FBK_HPOS.at_ t.fbk) else 0)) ∧
     (p = 0xC1 → reads (if t.drive = 2 then s.dev.reg (F.FBK_SPD.at_ t.fbk) else 0)) ∧
     (p = 0xC2 → reads (if t.drive = 2 then (s.dev.fbk t.fbk).statTick else 0)) ∧
     (p = 0xC3 → reads (if t.drive = 2 then s.dev.reg (F.FBK_HAGE.at_ t.fbk) else 0)) ∧
     (p = 0x10B → reads (s.dev.axis k).copyS) ∧
     (∀ a, a < 32 → p = 0x140 + a → reads (uget (s.dev.axis k).copy (F.AX_PARAM.at_ k + a))) ∧
     (∀ a, a < 16 → p = 0x160 + a → reads (uget (s.dev.axis k).copy (F.AX_MODE.at_ k + a))) ∧
     (p = 0x1C8 → reads (s.dev.axis k).sstatTick) ∧ (p = 0x1CA → reads (s.dev.axis k).cmeasTick) ∧
     (p = 0x1E1 → reads (BitVec.ofNat 40 (s.dev.get F.GEY_FCNT))) ∧
     (0x100 ≤ p ∧ p ≤ 0x102 ∨ p = 0x108 ∨ p = 0x109 ∨ 0x180 ≤ p ∧ p ≤ 0x187 ∨ p = 0x1C0 ∨ p = 0x1CC →
       reads (uget r.ports p)) ∧
     (p = 0x1E0 → reads (BitVec.ofNat 40 r.cpage)) ∧
     (0x1E4 ≤ p ∧ p < 1024 →
       RetiresOn s (s.dev.accessFault e p 1) (.in_ i) i [] [i.dn] [] [] [] 1 fun _ b => b.W i.dn = 0) ∧
     (p = 0 → Retires s (.rdceil i) i [] [i.dn] [] [] [] 1 fun _ b => b.W i.dn = (s.dev.axis k).copyCeil) ∧
     (∀ a, a < 32 → p = a →
       let n := 32 * t.pair + a
       let sum := s.dev.getI F.ACC_HSUM_SUM n
       let cnt := s.dev.get F.ACC_HCNT_CNT n
       let m := if cnt = 0 then 0 else (sum * s.dev.getI F.ACC_CFG_SCALE n) / ((cnt : Int) * 256)
       Retires s (.rdavg i) i [] [i.dn] [fV, fSat] [] [] 6 fun r b =>
         b.W i.dn = satWord m ∧ b.clampedVs r (outP32 m)) ∧
     (p = 0xC0 → Retires s (.rdpos i) i [] [i.dn] [fPv, fPn] [] [] 1 fun _ b =>
       b.W i.dn = (if t.drive = 2 then s.dev.reg (F.FBK_HPOS.at_ t.fbk) else 0) ∧
       b.flag fPv = (decide (t.drive = 2) && (s.dev.fbk t.fbk).statTick.getLsbD 0) ∧
       b.flag fPn = (decide (t.drive = 2 ∧ s.dev.get F.FBK_HAGE_AGE t.fbk < s.dev.gey.prevLen) &&
         (s.dev.fbk t.fbk).begunTick))) ∧
  (∀ (s : State) (i : Issue), Ready s.dev i [i.an] → i.d = 0 → i.b = 0 →
     let e := i.eng.val
     let r := s.dev.run e
     let k := r.axis.val
     let p := i.x.toNat
     let w := r.W i.an
     let faults := fun kind : Nat =>
       RetiresOn s (s.dev.accessFault e p kind) (.out i) i [i.an] [] [] [] [] 1 fun _ _ => True
     let goes := fun P : Dev → Prop => Fetched s.dev (.out i) i (r.issueAt [i.an] + 1) →
       ∃ d : Dev, exec (.out i) s = .next { s with dev := d.settle } ∧
       SeqStep r (d.run e) r.lc ∧ (∀ j, j ≠ e → d.eng j = s.dev.eng j) ∧ (d.eng e).dmem = (s.dev.eng e).dmem ∧
       (d.run e).w = r.w ∧ (d.run e).flags = r.flags ∧ (d.run e).p = r.p ∧ (d.run e).z0 = r.z0 ∧ (d.run e).z1 = r.z1 ∧
       d = { s.dev with regs := d.regs, engs := d.engs } ∧
       (d.run e).ports = uset r.ports p w ∧ P d
     (∀ j, j < 8 → p = 0x180 + j → r.kind ≠ .shadow → goes fun d =>
       d.reg (F.AX_REP.at_ k + j) = w ∧ s.dev.keepsRegs d [F.AX_REP.at_ k + j]) ∧
     (∀ j, j < 8 → p = 0x180 + j → r.kind = .shadow → goes fun d => d.regs = s.dev.regs) ∧
     (p = 0x1C0 → r.kind ≠ .shadow → goes fun d =>
       d.reg (F.AX_PEVT.at_ k) = w ∧ d.ev (8 * k + 7) = true ∧
       s.dev.keepsRegs d [F.AX_PEVT.at_ k, F.EVT_STAT.at_ (k / 4)]) ∧
     (p = 0x1C0 → r.kind = .shadow → goes fun d => d.regs = s.dev.regs) ∧
     (p = 0x1CC → w.toNat < 8 → goes fun d => d.regs = s.dev.regs ∧ (d.run e).out.sreq = r.out.sreq ||| w.toNat) ∧
     (p = 0x1CC → 8 ≤ w.toNat → faults 1) ∧
     (p = 0xC4 → (s.dev.topo k).drive = 2 → w.toNat < 2 → goes fun d =>
       d.regs = s.dev.regs ∧ (d.run e).out.fctl = (r.out.fctl || w == 1)) ∧
     (p = 0xC4 → (s.dev.topo k).drive ≠ 2 ∨ 2 ≤ w.toNat → faults 1) ∧
     (p = 0x1E0 → w.toNat < 8 → goes fun d => d.regs = s.dev.regs ∧ (d.run e).cpage = w.toNat) ∧
     (p = 0x1E0 → 8 ≤ w.toNat → faults 2) ∧
     (p < 32 ∨ p = 0x10A ∨ p = 0x10B ∨ 0x140 ≤ p ∧ p ≤ 0x16F ∨ p = 0x1E1 ∨ p = 0x1E3 → faults 2) ∧
     (0x100 ≤ p ∧ p ≤ 0x106 ∨ p = 0x108 ∨ p = 0x109 ∨ 0x1E4 ≤ p ∧ p < 1024 → faults 1))

/-- R189, R190, R228, R232: WRDUTY clamps a duty to the range 0 to 1 and writes it to the leg's shadow register, where
the axis asks for no reference first or has written IREFQ. WRIREF clamps a reference to the current limit of the frame
copy, and the q-axis one to what the d-axis one leaves of it. A clamp sets CL and SAT. -/
def Obligations.DutyAndReference : Prop :=
  ∀ (s : State) (i : Issue), Ready s.dev i [i.an] → i.b = 0 →
    let e := i.eng.val
    let r := s.dev.run e
    let k := r.axis.val
    let p := i.x.toNat
    let x := r.WI i.an
    let goes := fun (c : Instr) (n : Nat) (y : Int) (P : Dev → Prop) => Fetched s.dev c i (r.issueAt [i.an] + n) →
      ∃ d : Dev, exec c s = .next { s with dev := d.settle } ∧
        SeqStep r (d.run e) r.lc ∧ (d.run e).cyc = r.issueAt [i.an] + n ∧ (∀ j, j ≠ e → d.eng j = s.dev.eng j) ∧
        (d.eng e).dmem = (s.dev.eng e).dmem ∧
        (d.run e).ports = uset r.ports p (BitVec.ofInt 40 y) ∧
        (d.run e).flag fCl = (r.flag fCl || decide (y ≠ x)) ∧ (d.run e).flag fSat = (r.flag fSat || decide (y ≠ x)) ∧
        (∀ j, j < 16 → j ≠ fCl → j ≠ fSat → (d.run e).flag j = r.flag j) ∧ P d
    let duty := max 0 (min x p32One)
    (i.d = 0 → ∀ j, j < 3 → p = 0x100 + j → (s.dev.flag F.AX_CFG_IREQ k = true → r.irefq = true) →
      (r.kind ≠ .shadow → r.kind ≠ .takeover → goes (.wrduty i) 1 duty fun d =>
        d.reg (F.LEG_SDUTY.at_ (3 * k + j)) = BitVec.ofInt 40 duty ∧ (d.leg (3 * k + j)).written = true ∧
        (duty ≠ x → d.flag F.LEG_STAT_SAT (3 * k + j) = true) ∧ (d.run e).w = r.w ∧
        s.dev.keepsRegs d [F.LEG_SDUTY.at_ (3 * k + j), F.LEG_STAT.at_ (3 * k + j)]) ∧
      (r.kind = .shadow → goes (.wrduty i) 1 duty fun d => d.regs = s.dev.regs ∧ d.legs = s.dev.legs)) ∧
    (i.d = 0 → ∀ j, j < 3 → p = 0x100 + j → s.dev.flag F.AX_CFG_IREQ k = true → r.irefq = false →
      RetiresOn s (s.dev.accessFault e p 3) (.wrduty i) i [i.an] [] [] [] [] 1 fun _ _ => True) ∧
    (i.d = 0 → p = 0x107 → RetiresOn s (s.dev.accessFault e p 1) (.wrduty i) i [i.an] [] [] [] [] 1 fun _ _ => True) ∧
    (∀ l y : Int, l = max (s.dev.axis k).copyCeil.toInt 0 → (p = 0x108 ∧ y = max (-l) (min l x) ∨
        p = 0x109 ∧ ∃ q : Int, 0 ≤ q ∧ q * q ≤ max 0 (l * l - (uget r.ports 0x108).toInt ^ 2) ∧
          max 0 (l * l - (uget r.ports 0x108).toInt ^ 2) < (q + 1) * (q + 1) ∧ y = max (-q) (min q x)) →
      goes (.wriref i) 8 y fun d =>
        (d.run e).W i.dn = BitVec.ofInt 40 y ∧ (∀ j, j ≠ i.dn → (d.run e).W j = r.W j) ∧
        (d.run e).irefd = (r.irefd || decide (p = 0x108)) ∧ (d.run e).irefq = (r.irefq || decide (p = 0x109)) ∧
        d = { s.dev with engs := d.engs }) ∧
    (p < 0x100 → RetiresOn s (s.dev.accessFault e p 1) (.wriref i) i [i.an] [i.dn] [] [] [] 8 fun _ b => b.W i.dn = 0)

/-! ### Magma engines: far accesses, failures and promotion (chapters 9, 10, 13) -/

/-- R191 to R193, R215: a far access to a bank that the map closes to the engine is an access fault of KIND 4, and a load
gives 0. One that wins its bank moves its data in the next cycle, and HALT waits for it; one that loses is parked in the bank's
queue. A fifth outstanding access, and one whose bank's queue is full, wait at issue (R193, R327). The stores of a shadow run go
nowhere (R276). R193, R194, R319, R326: the parked request that the arbiter has granted moves its data: a load gets its word, or 0
with an access fault of KIND 5 of its own address for an error tag; a store writes its word. A request that waits alone is granted
at the end of the cycle in which its bank is free; a reserved bank grants none (R329). The banks are arbitrated up to the cycle of
the access first: the model's clock (log entry 12). -/
def Obligations.FarAccesses : Prop :=
  (∀ (s : State) (i : Issue) (won : Bool) (srcs : List Nat) (n : Nat), i.b.val < 4 → i.x.extractLsb' 0 21 = 0 →
     let e := i.eng.val
     let r := s.dev.run e
     let a := r.cpage * 65536 + r.P i.bn
     let b := bankOf a
     let may := s.dev.engineMay r.axis.val b
     let t := r.startAt + n
     let x := s.dev.arbTo t
     let q := fun kind : ReqKind => ({ req := e, since := t, addr := a, kind := kind } : Req)
     let wins := fun kind : ReqKind => won && x.conWins b t (q kind)
     let inc := fun y : EngRun => y.P i.bn = (if i.x.getLsbD 21 then (r.P i.bn + 1) % 65536 else r.P i.bn)
     let goes := fun (c : Instr) (y : Dev) (P : Dev → Prop) => Fetched s.dev c i (n + 1) →
       GivesServed s c fun d =>
         SeqStep r (d.run e) r.lc ∧ inc (d.run e) ∧ (d.run e).cyc = n + 1 ∧ (∀ j, j ≠ e → d.eng j = y.eng j) ∧
         (d.eng e).dmem = (y.eng e).dmem ∧ d = { y with engs := d.engs, con := d.con } ∧ P d
     let waits := fun (c : Instr) (y : Dev) (u : EngRun) => s.dev.pword e = i.word (opcodeOf c) → GivesServed s c fun d =>
       EngineOnly y d e ∧ d.run e = u
     let asked := fun d : Dev => (∀ y ∈ x.queue b, y.at_ ≠ some t) → d.con.queues = x.con.queues
     let parks := fun (d : Dev) (kind : ReqKind) (f : Far) =>
       (d.run e).far = r.far ++ [f] ∧ d.con.mem = x.con.mem ∧ (d.run e).w = r.w ∧
       ((∀ y ∈ x.queue b, y.at_ ≠ some t) → uget d.con.queues b = uget x.con.queues b ++ [q kind] ∧
         ∀ j, j ≠ b → uget d.con.queues j = uget x.con.queues j)
     let ready := r.stalled = false ∧ r.full = none ∧ r.farFrom (r.issueAt srcs) = some n
     let served := fun d : Dev => (d.run e).far = r.far ∧ uget (d.run e).ready 16 = max (uget r.ready 16) (n + 2)
     (srcs = [] → Ready s.dev i srcs → i.a = 0 →
       (may = false → RetiresOn s (s.dev.accessFault e 0 4) (.ldf i won) i [] [i.dn] [] [] [] 1 fun _ y => y.W i.dn = 0) ∧
       (may = true → 4 ≤ r.far.length → waits (.ldf i won) s.dev { r with stalled := true }) ∧
       (may = true → ready → n ≤ s.dev.deadlineIn e → x.conFull b t = true → wins (.load 0) = false →
         waits (.ldf i won) x { r with stalled := true, full := some (t, t) }) ∧
       (may = true → ready → wins (.load 0) = true → x.eccOf a i.data = .ok → goes (.ldf i won) x fun d =>
         (d.run e).W i.dn = x.cal a ∧ (∀ j, j ≠ i.dn → (d.run e).W j = r.W j) ∧ served d ∧ d.con.mem = x.con.mem ∧ asked d) ∧
       (may = true → ready → wins (.load 0) = false → x.conFull b t = false → goes (.ldf i won) x fun d =>
         parks d (.load i.dn) { load := true, dest := i.dn, addr := a, value := r.W i.an, pc := r.pc })) ∧
     (srcs = [i.an] → Ready s.dev i srcs → i.d = 0 →
       (may = false → RetiresOn s (s.dev.accessFault e 0 4) (.stf i won) i [i.an] [] [] [] [] 1 fun _ _ => True) ∧
       (may = true → r.kind ≠ .shadow → 4 ≤ r.far.length → waits (.stf i won) s.dev { r with stalled := true }) ∧
       (may = true → r.kind ≠ .shadow → ready → n ≤ s.dev.deadlineIn e → x.conFull b t = true → wins (.load 0) = false →
         waits (.stf i won) x { r with stalled := true, full := some (t, t) }) ∧
       (may = true → r.kind ≠ .shadow → ready → wins (.load 0) = true → goes (.stf i won) x fun d =>
         d.cal a = r.W i.an ∧ (∀ y, y ≠ a → d.cal y = x.cal y) ∧ served d ∧ asked d ∧ (d.run e).w = r.w) ∧
       (may = true → r.kind ≠ .shadow → ready → wins (.load 0) = false → x.conFull b t = false → goes (.stf i won) x fun d =>
         parks d (.store (r.W i.an)) { load := false, dest := 0, addr := a, value := r.W i.an, pc := r.pc }) ∧
       (may = true → r.kind = .shadow → n = r.issueAt srcs → goes (.stf i won) s.dev fun d =>
         d.con = s.dev.con ∧ (d.run e).w = r.w))) ∧
  (∀ (s : State) (bank : Fin 16) (ecc : Ecc),
     let b := bank.val
     let y := s.dev.granted b Req.isFar
     ((∀ q ∈ s.dev.queue b, q.isFar = true → q.at_ = none) → s.dev.conHeld b = true ∨ s.dev.nextArb b = none →
       exec (.farAccessComplete bank ecc) s = .next { s with dev := s.dev.settle }) ∧
     (∀ q t, q.isFar = true → s.dev.waits = 1 → (∀ e, (s.dev.eng e).burst = none) → (∀ x ∈ s.dev.queue b, x.at_ = none) → s.dev.nextArb b = some t →
       s.dev.conPick b = some q → y.2 = some { q with at_ := some (t + 1) }) ∧
     (∀ q : Req, y.2 = some q → q.req < 10 → (∃ n, q.kind = .load n) ∨ (∃ w, q.kind = .store w) →
       let then_ := y.1.toCycle (q.at_.getD 0)
       let r := then_.run q.req
       let got := then_.eccOf q.addr ecc
       GivesServed s (.farAccessComplete bank ecc) fun d =>
         uget d.con.queues b = (uget then_.con.queues b).filter (fun x => x != q) ∧
         (∀ j, j ≠ b → uget d.con.queues j = uget then_.con.queues j) ∧
         (∀ j, j ≠ q.req → d.eng j = then_.eng j) ∧ (d.eng q.req).dmem = (then_.eng q.req).dmem ∧
         (∀ n, q.kind = .load n →
           d.con.mem = then_.con.mem ∧ (∀ j, j ≠ n → (d.run q.req).W j = r.W j) ∧
           (d.run q.req).W n = (if got = .uncorrectable then 0 else then_.cal q.addr) ∧
           (got = .ok → then_.keepsRegs d [F.CON_CNT.at_ 0] ∧ (d.run q.req).flags = r.flags) ∧
           (got = .corrected → q.addr ∈ d.con.wb ∧
             d.get F.CON_ECC_SCNT = min (then_.get F.CON_ECC_SCNT + 1) (2 ^ F.CON_ECC_SCNT.width - 1) ∧
             (d.run q.req).flags = r.flags) ∧
           (got = .uncorrectable → (d.run q.req).flag fAf = true ∧ d.flag F.ENG_STAT_AF q.req = true ∧ d.ev 105 = true ∧
             (∀ f, r.far.find? (fun f => f.load && f.addr == q.addr && f.dest == n) = some f → r.faulted = false →
               d.get F.ENG_AFLT_PC q.req = f.pc % 2 ^ F.ENG_AFLT_PC.width ∧ d.get F.ENG_AFLT_KIND q.req = 5))) ∧
         (∀ w, q.kind = .store w →
           d.cal q.addr = w ∧ (∀ x, x ≠ q.addr → d.cal x = then_.cal x) ∧ then_.keepsRegs d [F.CON_CNT.at_ 0] ∧
           (d.run q.req).w = r.w)))

/-- R178, R180, R202: for every instruction, a fetch at or beyond CODE_N ends the run with cause FETCH, an uncorrectable
word ends it, and a word whose fields break R202 (every bit of D, A, B and X is 1, which no instruction allows) ends it
with cause OPCODE, each before the deadline. R178: an uncorrectable word of an engine memory ends the run, which is no overrun,
and shows in ENG_STAT.DECC and ENG_ECC. The run of an engine that serves an axis leaves a promotion trigger (R280). R181 to
R184: a run that ends as an overrun is counted with its cause, raises EV(8k+6) and leaves no output: the leg, the report
register it wrote hold again what they held at its start. A hang or a parity error makes it a hardware overrun and a promotion
trigger. (Stated of an axis on its first or second overrun in a row, without a ramp.) -/
def Obligations.RunEndings : Prop :=
  (∀ (s : State) (i : Issue) (c : Issue → Instr),
     c ∈ [Instr.nop, .halt, .br, .call, .ret, .loopi, .mov, .ldi, .ldih, .gets, .puts, .pset, .ld, .st, (Instr.ldf · true),
       (Instr.stf · true), .add, .sub, .addi, .adds, .subs, .negs, .satp, .min_, .max_, .clamp, .cmp, .muls, .mul, .mac, .zrd,
       .zld, .and_, .or_, .xor_, .shl, .shr, .sar, .divstep, .trig, .atan2, .clarke, .park, .ipark, .svm, .pistep, .in_, .out,
       .rdavg, .rdpos, .wrduty, .wriref, .rdceil] →
     s.dev.awake = true → (s.dev.run i.eng).live = true → (s.dev.run i.eng).far = [] →
     (∀ srcs, (s.dev.run i.eng).issueAt srcs < s.dev.deadlineIn i.eng) →
     let pc := (s.dev.run i.eng).pc
     (i.fetch = .uncorrectable → exec (c i) s = .next { s with dev := (s.dev.engFatal i.eng pc false).settle }) ∧
     (i.fetch ≠ .uncorrectable → (s.dev.runProg i.eng).codeN ≤ pc →
       exec (c i) s = .next { s with dev := (s.dev.overrun i.eng 2).settle }) ∧
     (pc < (s.dev.runProg i.eng).codeN → i.fetch = .ok → i.d = 15 → i.a = 15 → i.b = 15 → i.x = BitVec.allOnes 22 →
       s.dev.pword i.eng = i.word (opcodeOf (c i)) →
       exec (c i) s = .next { s with dev := (s.dev.overrun i.eng 3).settle })) ∧
  (∀ (d : Dev) (e a : Nat) (data : Bool), e < 10 →
     let b := d.engFatal e a data
     b.flag F.ENG_STAT_DECC e = true ∧ b.get F.ENG_ECC_ADDR e = a % 65536 ∧ b.flag F.ENG_ECC_MEM e = data ∧
     (b.run e).live = false ∧ (b.run e).ended = .ecc ∧ (∀ j, j ≠ e → b.eng j = d.eng j) ∧
     (b.eng e).dmem = (d.eng e).dmem ∧ d.keepsRegs b [F.ENG_STAT.at_ e, F.ENG_ECC.at_ e, F.CON_CNT.at_ 0] ∧
     ((∀ x, ∀ q ∈ d.queue x, q.req ≠ e) → b.con = d.con) ∧ b.axes = d.axes ∧
     ((d.run e).kind ≠ .shadow → (d.servedBy e).isSome = true → (∀ t ∈ d.patrol.trig, t.eng ≠ e) →
       b.patrol.trig = d.patrol.trig ++ [{ eng := e, cause := 1, at_ := d.clk.now }]) ∧
     ((d.run e).kind = .shadow → b.patrol = d.patrol)) ∧
  (∀ (d : Dev) (e : Fin 10) (cause : Fin 8) (l : Fin 24) (j : Fin 8) (duty rep : Word) (written : Bool),
     let r := d.run e
     let k := r.axis.val
     r.kind ≠ .shadow → (d.comm k).ramp = none → d.get F.ENG_OVR_CONSEC e < 2 →
     r.savedLegs = [(l.val, duty, written)] → r.savedRegs = [(F.AX_REP.at_ k + j.val, rep)] → r.savedBrakes = [] →
     let b := d.overrun e cause
     b.reg (F.LEG_SDUTY.at_ l) = duty ∧ (b.leg l).written = written ∧ b.reg (F.AX_REP.at_ k + j.val) = rep ∧
     b.get F.ENG_OVR_CAUSE e = cause ∧ b.flag F.ENG_OVR_HW e = (r.hang || r.parity) ∧
     b.get F.ENG_OVR_COUNT e = min (d.get F.ENG_OVR_COUNT e + 1) 65535 ∧
     b.get F.ENG_OVR_CONSEC e = d.get F.ENG_OVR_CONSEC e + 1 ∧ b.ev (8 * k + 6) = true ∧
     (b.run e).live = false ∧ (b.run e).ended = .overrun ∧ (b.axis k).ovr = true ∧
     (∀ i, i ≠ e.val → b.eng i = d.eng i) ∧ (b.eng e).dmem = (d.eng e).dmem ∧
     d.keepsRegs b [F.LEG_SDUTY.at_ l, F.AX_REP.at_ k + j.val, F.ENG_OVR.at_ e, F.ENG_STAT.at_ e, F.EVT_STAT.at_ (k / 4),
       F.CON_CNT.at_ 0] ∧
     ((r.hang || r.parity) = false → b.patrol.trig = d.patrol.trig ∧ (r.kind ≠ .takeover → b.patrol = d.patrol)) ∧
     ((r.hang || r.parity) = true → (d.servedBy e).isSome = true → (∀ t ∈ d.patrol.trig, t.eng ≠ e.val) →
       b.patrol.trig = d.patrol.trig ++ [{ eng := e, cause := 4, at_ := d.clk.now }]))

/-- R180, R181, R184, R202, R280: what ends, marks or reports the run of an engine, and nothing where its condition does
not hold: an illegal word, a fetch beyond the program, the deadline watchdog, a hang, a parity error, a clock that is out
of range. An engine hangs in the cycle in which 256 have passed without a retirement, if the deadline has not fired. A hang, a
parity error or a bad clock of a reserve in the shadow run whose mismatch awaits the warden fences the reserve, and the primary
keeps its axis (R278, R287). A parity error and a bad clock are a promotion trigger of an engine that serves an axis, and of a primary that is not fenced (R287). -/
def Obligations.EngineFailures : Prop :=
  ∀ (s : State) (eng : Fin 10),
    let r := s.dev.run eng
    let over_ := (s.dev.runProg eng).codeN ≤ r.pc
    let early := r.cyc < s.dev.deadlineIn eng
    (∀ w, r.live = true → illegalWord w = true → ¬over_ → s.dev.pword eng = w → early →
      exec (.illegalInstruction eng w) s = .next { s with dev := (s.dev.overrun eng 3).settle }) ∧
    (∀ w, r.live = false ∨ illegalWord w = false ∨ over_ ∨ s.dev.pword eng ≠ w →
      exec (.illegalInstruction eng w) s = .next { s with dev := s.dev.settle }) ∧
    (∀ w : Word, w.toNat / 2 ^ 34 = 0 → r.live = true → ¬over_ → s.dev.pword eng = w → early →
      exec (.illegalInstruction eng w) s = .next { s with dev := (s.dev.overrun eng 3).settle }) ∧
    (r.live = true → over_ → early → exec (.fetchFault eng) s = .next { s with dev := (s.dev.overrun eng 2).settle }) ∧
    (r.live = false ∨ ¬over_ → exec (.fetchFault eng) s = .next { s with dev := s.dev.settle }) ∧
    (r.live = true → exec (.engineDeadline eng) s = .next { s with dev :=
      ((s.dev.toCycle (r.startAt + ((s.dev.runProg eng).wcet + 64))).overrun eng 1).settle }) ∧
    (r.live = false → exec (.engineDeadline eng) s = .next { s with dev := s.dev.settle }) ∧
    let awaits := ∃ t ∈ s.dev.patrol.trig, t.res = some eng.val
    let at_ := max r.cyc (uget r.ready 16) + 256
    let hangs := r.live = true ∧ r.far = [] ∧ r.stalled = false ∧ at_ ≤ s.dev.deadlineIn eng
    (hangs → ¬awaits →
      let x := s.dev.toCycle (r.startAt + at_)
      Gives s (.engineHang eng) fun d =>
        d.flag F.ENG_STAT_HANG eng = true ∧ x.keepsRegs d [F.ENG_STAT.at_ eng] ∧ EngineOnly x { d with regs := x.regs } eng ∧
        d.run eng = { x.run eng with hang := true }) ∧
    (¬hangs → exec (.engineHang eng) s = .next s) ∧
    (awaits → r.kind = .shadow → r.live = true → ∀ c,
      c = .engineHang eng ∧ hangs ∨ c = .parityError eng ∨ c = .clockMonitorFault eng → Gives s c fun d =>
        d.fenced eng = true ∧ d.ev 101 = true ∧ (d.run eng).live = false ∧ ∀ t ∈ d.patrol.trig, t.res ≠ some eng.val) ∧
    (¬awaits → ∀ c : Bool, Gives s (if c then .parityError eng else .clockMonitorFault eng) fun d =>
      d = { s.dev with engs := d.engs, patrol := d.patrol } ∧ (∀ j, j ≠ eng.val → d.eng j = s.dev.eng j) ∧
      (r.live = true → d.run eng = if c then { r with parity := true } else { r with clockBad := true }) ∧
      (r.live = false → d.run eng = r) ∧
      ((s.dev.servedBy eng).isSome = true ∨ s.dev.sys.sealed = true ∧ eng.val < 8 ∧ s.dev.fenced eng = false →
        (∀ t ∈ s.dev.patrol.trig, t.eng ≠ eng.val) →
        d.patrol.trig = s.dev.patrol.trig ++ [{ eng := eng, cause := if c then 2 else 3, at_ := s.dev.clk.now }]) ∧
      ((s.dev.servedBy eng).isSome = false → 8 ≤ eng.val ∨ s.dev.fenced eng = true → d.patrol = s.dev.patrol))

/-- R277 and R278: the comparator counts equal streams; unequal items, or a shadow ended by its own hardware, are a
mismatch: its record, EV99, and a promotion trigger of a primary whose reserve is sound. What the comparator found first stands (the model's choice, log entry 49), and no checkpoint follows the run (R279).
R281, R283, R286: the warden fences the engine of the earliest trigger and gives its axis to the lowest free reserve, with a
takeover run where the axis's last run is newer than its last checkpoint; an axis for which no reserve is free is stranded. The
takeover run starts at once from the checkpoint. That the reserve takes the failed engine's ENG_CKPT and its consecutive overruns is
the model's choice (log entry 43), and so is the word 0 that an error tag leaves in a copy (log entry 87). -/
def Obligations.PatrolAndPromotion : Prop :=
  (∀ (s : State) (res : Fin 2) (c : Cmp) (p : Nat),
     let e := 8 + res.val
     let k := c.axis
     ((∀ t ∈ s.dev.patrol.open_, t.res ≠ e) → exec (.patrolVerdict res) s = .next { s with dev := s.dev.settle }) ∧
     (s.dev.patrol.open_ = [c] → c.res = e → s.dev.engineOf k = some p → k < 8 →
       let v := if c.found = .open_ then verdictOf (s.dev.run p) (s.dev.run e) else c.found
       (v = .open_ → exec (.patrolVerdict res) s = .next { s with dev := s.dev.settle }) ∧
       (v = .match_ → GivesServed s (.patrolVerdict res) fun d =>
         d.get F.ENG_PCNT_MATCH = min (s.dev.get F.ENG_PCNT_MATCH + 1) (2 ^ F.ENG_PCNT_MATCH.width - 1) ∧
         d.patrol.open_ = [] ∧ s.dev.keepsRegs d [F.ENG_PCNT.at_ 0] ∧ d.engs = s.dev.engs) ∧
       (v = .none_ → GivesServed s (.patrolVerdict res) fun d =>
         d.get F.ENG_PCNT_SKIP = min (s.dev.get F.ENG_PCNT_SKIP + 1) (2 ^ F.ENG_PCNT_SKIP.width - 1) ∧
         d.flag F.ENG_PSTAT_ABANDON = true ∧ d.patrol.open_ = [] ∧
         s.dev.keepsRegs d [F.ENG_PCNT.at_ 0, F.ENG_PSTAT.at_ 0] ∧ d.engs = s.dev.engs) ∧
       (∀ n x, v = .mismatch n x → GivesServed s (.patrolVerdict res) fun d =>
         let r := s.dev.run e
         d.flag F.ENG_PSTAT_MISM = true ∧ d.ev 99 = true ∧ d.patrol.open_ = [] ∧
         (s.dev.flag F.ENG_PSTAT_MISM = false →
           d.get F.ENG_PMIS_AXIS = k ∧ d.get F.ENG_PMIS_RES = res.val ∧ d.get F.ENG_PMIS_INDEX = min n 4095 ∧
           d.get F.ENG_PMIS_KIND = x.kind.code ∧ d.get F.ENG_PMIS_ADDR = x.addr % 65536 ∧
           d.get F.ENG_PMIS_FRAME = r.frame % 64) ∧
         (s.dev.flag F.ENG_PSTAT_MISM = true → d.reg (F.ENG_PMIS.at_ 0) = s.dev.reg (F.ENG_PMIS.at_ 0)) ∧
         (p ≠ e → (d.eng p).ckptDue = false ∧ (d.run p).mism = true) ∧
         ((r.hang || r.parity || r.clockBad || r.ended == .ecc) = true → d.fenced e = true ∧ d.ev 101 = true) ∧
         ((r.hang || r.parity || r.clockBad || r.ended == .ecc) = false → (s.dev.servedBy p).isSome = true →
           (∀ t ∈ s.dev.patrol.trig, t.eng ≠ p) →
           d.patrol.trig = s.dev.patrol.trig ++ [{ eng := p, cause := 5, at_ := s.dev.clk.now, res := some e }])))) ∧
  (∀ (s : State),
     (s.dev.patrol.trig = [] ∨ s.dev.wdn.stopped = true → exec .promotion s = .next { s with dev := s.dev.settle }) ∧
     (∀ (t : Trigger) (k : Nat), s.dev.wdn.stopped = false → nextTrigger s.dev.patrol.trig = some t → t.eng < 8 →
       s.dev.servedBy t.eng = some k →
       let fenced := fun d : Dev => d.fenced t.eng = true ∧ d.get F.ENG_STAT_STATE t.eng = 3 ∧ (d.run t.eng).live = false ∧
         d.ev 101 = true ∧ ∀ x ∈ d.patrol.trig, x.eng ≠ t.eng
       (s.dev.freeRes 8 = true → GivesServed s .promotion fun d => fenced d ∧
         d.holds 8 = k ∧ d.get F.ENG_STAT_STATE 8 = 1 ∧ d.get F.ENG_STAT_AXIS 8 = k ∧ d.flag F.ENG_STAT_HASAXIS 8 = true ∧
         d.get F.ENG_PLAST_FAILED = t.eng ∧ d.get F.ENG_PLAST_RES = 0 ∧ d.get F.ENG_PLAST_AXIS = k ∧
         d.get F.ENG_PLAST_CAUSE = t.cause % 8 ∧ d.flag F.ENG_PLAST_TAKE = s.dev.needsTakeover t.eng k ∧
         d.reg (F.ENG_CKPT.at_ 8) = s.dev.reg (F.ENG_CKPT.at_ t.eng) ∧
         d.get F.ENG_OVR_CONSEC 8 = s.dev.get F.ENG_OVR_CONSEC t.eng ∧ d.ev 98 = true ∧
         (s.dev.freeRes 9 = false → d.ev 103 = true)) ∧
       (s.dev.freeRes 8 = false → s.dev.freeRes 9 = true → GivesServed s .promotion fun d => fenced d ∧
         d.holds 9 = k ∧ d.get F.ENG_PLAST_RES = 1 ∧ d.get F.ENG_PLAST_AXIS = k ∧ d.ev 98 = true ∧ d.ev 103 = true) ∧
       (s.dev.freeRes 8 = false → s.dev.freeRes 9 = false → GivesServed s .promotion fun d =>
         d.stranded k = true ∧ d.ev 100 = true)) ∧
     (∀ res : Fin 2,
       let e := 8 + res.val
       ((∀ t ∈ s.dev.patrol.takeover, t.1 ≠ e) → exec (.takeoverStart res) s = .next { s with dev := s.dev.settle }) ∧
       (∀ k, k < 8 → s.dev.patrol.takeover = [(e, k)] → s.dev.engineOf k = some e → GivesServed s (.takeoverStart res) fun d =>
         let r := d.run e
         r.kind = .takeover ∧ r.live = true ∧ r.axis.val = k ∧ r.pc = 0 ∧ r.cyc = 0 ∧ r.startAt = s.dev.clk.now ∧ r.w = [] ∧
         r.flag fImm = true ∧ r.flag fFr = (s.dev.axis k).fr ∧ d.get F.ENG_STAT_STATE e = 1 ∧
         d.flag F.ENG_STAT_IMM e = true ∧
         d.patrol.takeover = [] ∧ s.dev.keepsRegs d [F.ENG_STAT.at_ e, F.CON_ECC.at_ 0, F.EVT_STAT.at_ 3] ∧
         d.con.mem = s.dev.con.mem ∧
         (s.dev.con.bad = [] → s.dev.con.wb = [] → s.dev.keepsRegs d [F.ENG_STAT.at_ e] ∧ d.con = s.dev.con) ∧
         (∀ j, j ≠ e → d.eng j = s.dev.eng j) ∧
         (s.dev.flag F.ENG_CKPT_VALID e = true → ∀ j, j < (s.dev.progOf k).ckpt →
           let a := ckptAt k (s.dev.get F.ENG_CKPT_LAST e) + j
           uget (d.eng e).dmem (4096 * (s.dev.topo k).prog + j) = (if s.dev.con.bad.contains a then 0 else s.dev.cal a)) ∧
         (s.dev.flag F.ENG_CKPT_VALID e = false → (d.eng e).dmem = (s.dev.eng e).dmem))))

/-! ### Power stage and gates (chapters 4 and 5) -/

/-- R93, R94, R96, R112: the bus comparator of a live brake leg turns its gate on, within the minimum off time and the
hold, and counts each clamp; it goes off with the comparator when no command is passed. A short detection turns the gate
off with the hold, and the gate may turn on again when the hold ends. -/
def Obligations.BrakeLegs : Prop :=
  ∀ (s : State) (lb : Fin 4),
    let b := lb.val
    let v := s.dev.vent
    let g := v.brake b
    let now := s.dev.clk.now
    let ready := g.hold = false ∧ ∀ t, g.offAt = some t → t + v.brakeDt b ≤ now
    let only := fun d : Dev => d = { s.dev with vent := d.vent } ∧ (∀ j, j ≠ b → d.vent.brake j = v.brake j) ∧
      d.vent.axes = v.axes ∧ d.vent.legs = v.legs
    (v.brakeLive b = true → g.cmp = false → Gives s (.brakeComparatorOn lb) fun d => only d ∧
      (d.vent.brake b).cmp = true ∧ (d.vent.brake b).clamps = min (g.clamps + 1) 65535 ∧ d.vent.first = v.first ∧
      (g.gate = true → (d.vent.brake b).gate = true) ∧
      (g.gate = false → ready → (d.vent.brake b).gate = true) ∧
      (g.gate = false → ¬ready → (d.vent.brake b).gate = false)) ∧
    (v.brakeLive b = false ∨ g.cmp = true → exec (.brakeComparatorOn lb) s = .next s) ∧
    (v.brakeLive b = true → g.cmp = true → Gives s (.brakeComparatorOff lb) fun d => only d ∧
      (d.vent.brake b).cmp = false ∧ (d.vent.brake b).clamps = g.clamps ∧
      (v.scan = none → v.brakePassed b = false → (d.vent.brake b).gate = false ∧
        (d.vent.brake b).offAt = if g.gate then some now else g.offAt) ∧
      (v.scan = none → v.brakePassed b = true → g.gate = true → (d.vent.brake b).gate = true)) ∧
    (v.brakeLive b = false ∨ g.cmp = false → exec (.brakeComparatorOff lb) s = .next s) ∧
    (∀ stamp, v.inReset = false → g.gate = true → Gives s (.brakeShortDetection lb stamp) fun d => only d ∧
      (d.vent.brake b).gate = false ∧ (d.vent.brake b).soft = true ∧ (d.vent.brake b).hold = true ∧
      (d.vent.brake b).sc = true ∧ (d.vent.brake b).sccnt = min (g.sccnt + 1) 65535 ∧ (d.vent.brake b).cmp = g.cmp ∧
      (d.vent.brake b).offAt = some now ∧
      (v.first.valid1 = false → d.vent.first.valid1 = true ∧ d.vent.first.leg1 = 24 + b ∧ d.vent.first.stamp1 = stamp)) ∧
    (∀ stamp, v.inReset = true → exec (.brakeShortDetection lb stamp) s = .next s) ∧
    (let then_ := if g.hold then s.dev.toCycle (g.offAt.getD 0 + 4000) else s.dev
     Gives s (.brakeScHoldEnd lb) fun d => d = { then_ with vent := d.vent } ∧
      (∀ j, j ≠ b → d.vent.brake j = then_.vent.brake j) ∧ d.vent.axes = then_.vent.axes ∧ d.vent.legs = then_.vent.legs ∧
      (d.vent.brake b).hold = false ∧
      (then_.vent.brakeWant b = true → (∀ t, g.offAt = some t → t + v.brakeDt b ≤ then_.clk.now) →
        (d.vent.brake b).gate = true) ∧
      (then_.vent.brakeWant b = false → (d.vent.brake b).gate = false))

/-- R81, R85, R104: at the end of its dead time a gate turns on, unless the interlock, the other gate or the inhibit
holds it. A turn-on within the dead time of the other gate's off command is held back to its end and counts in DTFIX; a high
gate with less than 8.0 V of bootstrap voltage does not turn on, and counts, and is compared anew in the next carrier. A brake gate that is called for turns on at the
end of its minimum off time (R96). R86: both commands high turn both gates off and hold them. R92: at its time a refresh of a
standing SHORT_HIGH turns the high gate off for a low pulse. That XLOCK counts with the turn-off of both gates (log entry 71)
and that the refresh runs at the nominal rate of the Vent die's oscillator (log entry 75) are the model's choices. -/
def Obligations.GateTurnOn : Prop :=
  ∀ (s : State) (leg : Fin 24) (high early : Bool) (bst : Nat),
    let l := leg.val
    let v := s.dev.vent
    let t : Instr := .gateTurnOn ⟨leg.val, by omega⟩ high bst early
    let turns := fun (now dt : Nat) (g g' : VLeg) =>
      let blocked := (g.ilock || (g.gate (!high)).on || (high && g.inh)) = true
      let soon := ∃ t0, (g.gate (!high)).cmdOff = some t0 ∧ now < t0 + dt
      let same := g'.h = g.h ∧ g'.l = g.l
      g'.xlock = g.xlock ∧ g'.ilock = g.ilock ∧
      (blocked → same ∧ g'.inh = g.inh ∧ g'.bstinh = g.bstinh ∧ g'.dtfix = g.dtfix) ∧
      (¬blocked → soon → same ∧ g'.inh = g.inh ∧ g'.bstinh = g.bstinh ∧ g'.dtfix = min (g.dtfix + 1) 65535 ∧
        g'.pend = some high ∧ ∀ t0, (g.gate (!high)).cmdOff = some t0 → g'.pendAt = t0 + dt) ∧
      (¬blocked → ¬soon → high = true → bst < 8000 → same ∧ g'.inh = true ∧ g'.bstinh = min (g.bstinh + 1) 32767 ∧
        g'.dtfix = g.dtfix) ∧
      (¬blocked → ¬soon → (high = true → 8000 ≤ bst) →
        (g'.gate high).on = true ∧ (g'.gate high).watch = true ∧ g'.gate (!high) = g.gate (!high) ∧ g'.inh = g.inh ∧
        g'.bstinh = g.bstinh ∧ g'.dtfix = g.dtfix)
    let others := fun (x d : Dev) => (∀ m, m ≠ l → d.vent.leg m = x.vent.leg m) ∧ d.vent.axes = x.vent.axes ∧
      d.vent.brakes = x.vent.brakes ∧ d.regs = x.regs
    ((v.leg l).pend = some high → v.scan = none →
      let x := s.dev.toCycle (v.leg l).pendAt
      Gives s t fun d => d = { x with vent := d.vent } ∧ others x d ∧
        ((d.vent.leg l).pend = none ∨ (d.vent.leg l).pend = some high ∧ x.clk.now < (d.vent.leg l).pendAt) ∧
        let u := x.leg (x.lineUnit l)
        let g := x.vent.leg l
        turns x.clk.now (v.dt l) { g with inh := g.inh && (g.bstuv || !decide (u.cAt + u.cLen ≤ x.clk.now)) } (d.vent.leg l)) ∧
    ((v.leg l).pend ≠ some high → (s.dev.leg l).pend = some high → s.dev.flag F.LEG_STAT_OUTEN l = true →
      s.dev.par (l / 3) = false → (v.axis (l / 3)).st = .run →
      let x := if early then s.dev else s.dev.toFine (s.dev.leg l).pendAt
      Gives s t fun d => others x d ∧ turns x.clk.now (v.dt l) (x.vent.leg l) (d.vent.leg l) ∧
        (d.leg l).pend = none ∧ (if high then (d.leg l).hcmd else (d.leg l).lcmd) = true ∧
        (high = false → (d.leg l).lowSeen = true) ∧ (∀ m, m ≠ l → d.leg m = x.leg m)) ∧
    ((v.leg l).pend ≠ some high → (s.dev.leg l).pend ≠ some high → exec t s = .next s) ∧
    (∀ b : Fin 4,
      let free := v.brakeWant b = true ∧ (v.brake b).hold = false ∧ (v.brake b).gate = false
      let x := s.dev.toCycle (v.brakeFreeAt b)
      (free → Gives s (.gateTurnOn ⟨24 + b.val, by omega⟩ high bst early) fun d =>
        d = { x with vent := d.vent } ∧ (d.vent.brake b).gate = true ∧
        (∀ j, j ≠ b.val → d.vent.brake j = x.vent.brake j) ∧ d.vent.legs = x.vent.legs) ∧
      (¬free → exec (.gateTurnOn ⟨24 + b.val, by omega⟩ high bst early) s = .next s)) ∧
    ((v.axis (l / 3)).st = .run → s.dev.par (l / 3) = false → s.dev.parSec (l / 3) = false →
      Gives s (.crossConductionInterlock leg) fun d =>
        d = { s.dev with vent := d.vent, legs := d.legs } ∧ others s.dev d ∧ (d.leg l).hcmd = true ∧ (d.leg l).lcmd = true ∧
        (∀ m, m ≠ l → d.leg m = s.dev.leg m) ∧
        (d.vent.leg l).h.on = false ∧ (d.vent.leg l).l.on = false ∧
        (d.vent.leg l).ilock = true ∧ (d.vent.leg l).pend = none ∧ (d.vent.leg l).xlock = min ((v.leg l).xlock + 1) 65535) ∧
    ((v.axis (l / 3)).st ≠ .run → exec (.crossConductionInterlock leg) s = .next s) ∧
    (let sh := (v.axis (l / 3)).st = .safe ∧ (v.axis (l / 3)).act = .shortHigh ∧ (v.leg l).ref = .off
     let x := s.dev.toCycle (v.refreshAt l)
     (sh → Gives s (.shortHighRefresh leg) fun d =>
       d = { x with vent := d.vent } ∧ others x d ∧ (d.vent.leg l).h.on = false ∧ (d.vent.leg l).l = (x.vent.leg l).l ∧
       (d.vent.leg l).inh = (x.vent.leg l).bstuv ∧ (d.vent.leg l).refs = (x.vent.leg l).refs + 1 ∧
       (d.vent.leg l).pend = some false ∧ (d.vent.leg l).pendAt = x.clk.now + v.dt l ∧ (d.vent.leg l).ref = .lowWait) ∧
     (¬sh → exec (.shortHighRefresh leg) s = .next s))

/-- R105 to R110, R25: a detected short coasts the axis, a bootstrap undervoltage and a trip apply the stored action; the
ganged partner stops with it, each with the action of its own, and shows GANG; an axis that is SAFE already stays so, and
latches a trip only beside a latched VDS detection of its own legs that stopped it (R122; log entry 72, the model's choice). A
condition that is gone when blanking ends only counts; a gate that is off by then has never been checked (R106); and nothing is
detected at a gate that is not watched or in reset. That nothing is detected in scan mode is the model's choice (log entry 65). -/
def Obligations.PowerStageFaults : Prop :=
  ∀ (s : State) (leg : Fin 24) (high : Bool) (stamp : Nat),
    let l := leg.val
    let k := l / 3
    let v := s.dev.vent
    let now := s.dev.clk.now
    let only := fun d : Dev => d = { s.dev with vent := d.vent }
    let stopped := fun (d : Dev) (c : Cause) (j : Nat) (act : StopAct) =>
      (d.vent.axis j).st = .safe ∧ (d.vent.axis j).act = act ∧ (d.vent.axis j).cause = c ∧
      (act = .coast → ∀ m, m / 3 = j → (d.vent.leg m).h.on = false ∧ (d.vent.leg m).l.on = false ∧ (d.vent.leg m).pend = none)
    let sees := ((v.leg l).gate high).sees now = true ∧ v.inReset = false ∧ v.scan = none
    (sees → Gives s (.vdsDetection leg high stamp) fun d => only d ∧
      ((d.vent.leg l).gate high).vds = true ∧ ((d.vent.leg l).gate high).on = false ∧
      ((v.axis k).st ≠ .safe → stopped d .vds k .coast) ∧
      (∀ j, v.partner k = some j → j < 8 → (v.axis j).st ≠ .safe → stopped d .vds j .coast ∧ (d.vent.axis j).gang = true) ∧
      (v.first.valid1 = false → d.vent.first.valid1 = true ∧ d.vent.first.leg1 = l ∧ d.vent.first.side1 = high ∧
        d.vent.first.stamp1 = stamp)) ∧
    (¬sees → exec (.vdsDetection leg high stamp) s = .next s) ∧
    (exec (.blankingEnd ⟨leg.val, by omega⟩ high true stamp) s =
      if ((v.leg l).gate high).on then exec (.vdsDetection leg high stamp) s else .next s) ∧
    (((v.leg l).gate high).on = false → exec (.blankingEnd ⟨leg.val, by omega⟩ high false stamp) s = .next s) ∧
    (((v.leg l).gate high).on = true → Gives s (.blankingEnd ⟨leg.val, by omega⟩ high false stamp) fun d => only d ∧
      (d.vent.leg l).blkcnt = min ((v.leg l).blkcnt + 1) 65535 ∧ (d.vent.leg l).h = (v.leg l).h ∧
      (d.vent.leg l).l = (v.leg l).l ∧ (∀ m, m ≠ l → d.vent.leg m = v.leg m) ∧ d.vent.axes = v.axes) ∧
    (∀ b : Fin 4, exec (.blankingEnd ⟨24 + b.val, by omega⟩ high true stamp) s =
      if (v.brake b).gate then exec (.brakeShortDetection b stamp) s else .next s) ∧
    ((v.leg l).h.on = true → v.scan = none → Gives s (.bstuv leg) fun d => only d ∧
      (d.vent.leg l).bstuv = true ∧ (d.vent.leg l).inh = true ∧ (d.vent.leg l).h.on = false ∧
      ((v.axis k).st ≠ .safe → stopped d .bstuv k (if v.stored k = .shortHigh then .coast else v.stored k)) ∧
      (∀ j, v.partner k = some j → j < 8 → (v.axis j).st ≠ .safe →
        stopped d .bstuv j (if v.stored j = .shortHigh then .coast else v.stored j) ∧ (d.vent.axis j).gang = true)) ∧
    ((v.leg l).h.on = false ∨ v.scan ≠ none → exec (.bstuv leg) s = .next s) ∧
    (∀ axis : Fin 8, s.dev.tripLine axis = true → v.inReset = false → Gives s (.tripLine axis) fun d => only d ∧
      ((v.axis axis).st ≠ .safe → (d.vent.axis axis).trip = true ∧ stopped d .link axis (v.stored axis) ∧
        ∀ j, v.partner axis = some j → j < 8 → (v.axis j).st ≠ .safe →
          stopped d .link j (v.stored j) ∧ (d.vent.axis j).gang = true ∧ (d.vent.axis j).trip = (v.axis j).trip) ∧
      (let own := (v.axis axis).cause = .vds ∧ ∃ m, m / 3 = axis.val ∧ ((v.leg m).h.vds = true ∨ (v.leg m).l.vds = true)
       ((v.axis axis).st = .safe → own →
        d.vent.axis axis = { v.axis axis with trip := true } ∧ d.vent.legs = v.legs) ∧
       ((v.axis axis).st = .safe → ¬own → d.vent.axis axis = v.axis axis ∧ d.vent.legs = v.legs))) ∧
    (∀ axis : Fin 8, s.dev.tripLine axis = false ∨ v.inReset = true → exec (.tripLine axis) s = .next s)

/-- R16, R25, R101, R102, R413, R421: a STOP packet, heartbeat loss and LINKDOWN stop the axes on the Vent die with the
requested or the stored action, and a loss ends an arming exchange before its ARM_ACK (R432), so that no packet of it is answered any more; the monitors of VDRV show what they see; VDRV undervoltage resets the die, with every
gate off, every axis SAFE and no configuration. -/
def Obligations.VentStopsAndReset : Prop :=
  ∀ (s : State),
    let v := s.dev.vent
    let lost := fun d : Dev => d.vent.hbGood = 0 ∧ ∀ k, k < 8 →
      (d.vent.axis k).st = .safe ∧ (d.vent.axis k).chal = none ∧
      ((v.axis k).st ≠ .safe → (d.vent.axis k).link = true ∧ (d.vent.axis k).act = v.stored k ∧
        (v.stored k = .coast → ∀ m, m / 3 = k → (d.vent.leg m).h.on = false ∧ (d.vent.leg m).l.on = false)) ∧
      ((v.axis k).st = .safe → (d.vent.axis k).link = (v.axis k).link ∧ (d.vent.axis k).act = (v.axis k).act)
    let arm := s.dev.link.arm.map fun x => if x.stage = .nak then x else { x with stage := .lost }
    (v.inReset = false → Gives s .heartbeatTimeout fun d =>
      d = { s.dev with vent := d.vent, link := { s.dev.link with arm := arm } } ∧ lost d) ∧
    (v.inReset = true → exec .heartbeatTimeout s = .next s) ∧
    (s.dev.link.linkdown = true → v.inReset = false → Gives s .linkdown fun d =>
      d = { s.dev with vent := d.vent, link := { s.dev.link with linkdown := false, arm := arm } } ∧ lost d) ∧
    (s.dev.link.linkdown = false → exec .linkdown s = .next s) ∧
    (∀ k : Fin 8,
      (uget s.dev.link.stopPkt k = none → exec (.stopPacket k) s = .next s) ∧
      (∀ a, uget s.dev.link.stopPkt k = some a → Gives s (.stopPacket k) fun d =>
        uget d.link.stopPkt k = none ∧ d.regs = s.dev.regs ∧
        (v.inReset = true → d.vent = v) ∧
        (v.inReset = false → (v.axis k).st ≠ .safe → (d.vent.axis k).st = .safe ∧ (d.vent.axis k).act = a ∧
          (a = .coast ∨ a = .none → ∀ m, m / 3 = k.val → (d.vent.leg m).h.on = false ∧ (d.vent.leg m).l.on = false) ∧
          (a = .shortLow → ∀ m, m / 3 = k.val → (d.vent.leg m).h.on = false ∧ (d.vent.leg m).l = (v.leg m).l ∧
            ((v.leg m).l.on = false → (d.vent.leg m).pend = some false)) ∧
          (a = .shortHigh → ∀ m, m / 3 = k.val → (d.vent.leg m).l.on = false ∧ (d.vent.leg m).h = (v.leg m).h ∧
            ((v.leg m).h.on = false → (d.vent.leg m).pend = some true))) ∧
        (∀ m, m / 3 ≠ k.val → d.vent.leg m = v.leg m) ∧ (∀ j, j ≠ k.val → d.vent.axis j = v.axis j))) ∧
    (∀ active : Bool, Gives s (.vdrvMonitor true active) (fun d => d = { s.dev with vent := { v with vhigh := active } }) ∧
      Gives s (.vdrvMonitor false active) (fun d => d = { s.dev with vent := { v with vlow := active } })) ∧
    Gives s .vdrvUvlo (fun d => d = { s.dev with vent := d.vent } ∧ d.vent.inReset = true ∧ d.vent.cfgOk = false ∧
      d.vent.vrst = true ∧ (∀ k, (d.vent.axis k).st = .safe) ∧
      (∀ l, (d.vent.leg l).h.on = false ∧ (d.vent.leg l).l.on = false) ∧ (∀ b, (d.vent.brake b).gate = false) ∧
      d.vent.vlow = v.vlow ∧ d.vent.vhigh = v.vhigh) ∧
    (v.inReset = true → v.scan = none → s.dev.tap.cells = none → Gives s .ventResetRelease fun d =>
      d = { s.dev with vent := { v with inReset := false } }) ∧
    (v.inReset = false → exec .ventResetRelease s = .next s)

/-! ### The Vent link and authority (chapters 5 and 19) -/

/-- R16, R417, R420, R421: a valid heartbeat gives the Vent die the frame's period, carries stop requests to it, raises
an ARMED axis to RUN, and lowers one at the eighth heartbeat without RUN; the die answers with its status,
as it stands after the heartbeat was taken (log entry 13, the model's choice). One with a bad
CRC counts as missed (R15), and one that finds the die in reset does nothing. (Stated where no leg's interlock count has risen, R111.) -/
def Obligations.HeartbeatOnTheVentDie : Prop :=
  ∀ (s : State) (crcOk : Bool) (vdrv : BitVec 10) (iFrame : Nat),
    let v := s.dev.vent
    let c : Instr := .ventHeartbeatRx crcOk vdrv iFrame
    (s.dev.link.hb = none → exec c s = .next s) ∧
    (∀ hb : Heartbeat, s.dev.link.hb = some hb →
      (v.inReset = true → Gives s c fun d => d = { s.dev with link := { s.dev.link with hb := none } }) ∧
      (crcOk = false → v.inReset = false → Gives s c fun d =>
        d = { s.dev with link := { s.dev.link with hb := none }, vent := { v with hbGood := 0 } }) ∧
      (crcOk = true → v.inReset = false → Gives s c fun d =>
        d.regs = s.dev.regs ∧ d.link.hb = none ∧ d.link.status = some d.vent ∧ d.vent.hbPeriod = hb.period ∧
        d.vent.hbGood = (if hb.fcnt = (v.hbFrame + 1) % 2 ^ 40 then min (v.hbGood + 1) 2 else 1) ∧
        d.vent.hbFrame = hb.fcnt ∧ d.vent.vdrv = vdrv.toNat ∧
        d.vent.iavg = (iFrame :: v.iavg).take 64 ∧
        (v.scan = none → (∀ l, l < 24 → (v.leg l).xlock = (v.leg l).xlockHb) → ∀ k, k < 8 →
          let a := v.axis k
          let a' := d.vent.axis k
          (∀ act, hb.stops.getD k none = some act → a.st ≠ .safe → a'.st = .safe ∧ a'.act = act) ∧
          (hb.stops.getD k none = none →
            (a.st = .armed → hb.states.getD k .safe = .run → a' = { a with st := .run, noRun := 0 }) ∧
            (a.st = .armed → hb.states.getD k .safe ≠ .run → 7 ≤ a.noRun → a' = { a with st := .safe, noRun := 0 }) ∧
            (a.st = .armed → hb.states.getD k .safe ≠ .run → a.noRun < 7 → a' = { a with noRun := a.noRun + 1 }) ∧
            (a.st ≠ .armed → a' = a)))))

/-- R115, R423, R425, R427: a valid status packet brings the Vent die's states, latches and readings into the registers,
and a lower state than the one the heartbeat carried is a disagreement, which lowers the axis, unless the control die had
asked for the stop itself (R432). A packet with a bad CRC is lost. R424, R427: without a status packet a count rises, and the fourth in a row lowers every axis and raises EV116. When
the last temperature reading is 1 ms old, VALID falls, EV113 is raised, the programming window closes (R397), and the tick takes
SMIN for the throttle scale from here on (R429). R427, R430:
the Vent die keeps each reading of its diode; the second in a row at or above TSD shuts every axis down. -/
def Obligations.VentReports : Prop :=
  (∀ (s : State) (v : Vent),
     let o := s.dev.link.last.getD {}
     let carried := fun k => (s.dev.link.await.getD []).getD k .safe
     (s.dev.link.status = none → ∀ ok, exec (.statusPacket ok) s = .next s) ∧
     (s.dev.link.status = some v → Gives s (.statusPacket false) fun d =>
       d = { s.dev with regs := d.regs, link := { s.dev.link with status := none, lost := true } } ∧
       d.get F.VNT_STAT_PKTLOST = min (s.dev.get F.VNT_STAT_PKTLOST + 1) 65535 ∧ s.dev.keepsRegs d [F.VNT_STAT.at_ 0]) ∧
     (s.dev.link.status = some v → (v.vrst = false ∨ s.dev.link.rstArm = false) →
       (∀ k, k < 8 → (carried k).code ≤ (v.axis k).st.code ∨ uget s.dev.link.stopReq k ≠ none) → Gives s (.statusPacket true) fun d =>
         d = { s.dev with regs := d.regs, link := d.link } ∧
         d.link.status = none ∧ d.link.await = none ∧ d.link.missed = 0 ∧ d.link.last = some v ∧ d.link.acked = 0 ∧
         d.link.rstArm = (s.dev.link.rstArm || !v.vrst) ∧ d.flag F.DIE_LINK_VSIL = false ∧
         (∀ k, k < 8 →
           d.vst k = (v.axis k).st ∧ d.cst k = s.dev.cst k ∧
           d.get (F.VNT_AFLT_VSTATE.nth k) = (v.axis k).st.code ∧ d.flag (F.VNT_AFLT_GANG.nth k) = (v.axis k).gang ∧
           ((v.axis k).trip = true → (o.axis k).trip = false ∨ s.dev.flag (F.VNT_AFLT_TRIP.nth k) = false → d.flag (F.VNT_AFLT_TRIP.nth k) = true ∧ d.ev (8 * k) = true) ∧
           ((v.axis k).trip = false → d.flag (F.VNT_AFLT_TRIP.nth k) = s.dev.flag (F.VNT_AFLT_TRIP.nth k)) ∧
           ((v.axis k).link = true → (o.axis k).link = false → d.flag (F.VNT_AFLT_LINK.nth k) = true ∧ d.ev 118 = true)) ∧
         (∀ l, l < 24 →
           ((v.leg l).h.vds = true → (o.leg l).h.vds = false → d.flag F.LEG_FLT_VDSH l = true ∧ d.ev (8 * (l / 3)) = true) ∧
           ((o.leg l).dtfix ≤ (v.leg l).dtfix → d.get F.LEG_VSTAT_DTFIX l =
             min (s.dev.get F.LEG_VSTAT_DTFIX l + ((v.leg l).dtfix - (o.leg l).dtfix)) 65535)) ∧
         (∀ b, b < 4 → d.flag F.BRK_STAT_ON b = (v.brake b).gate ∧ d.flag F.BRK_STAT_CMP b = (v.brake b).cmp) ∧
         d.flag F.VNT_STAT_VLOW = v.vlow ∧ d.flag F.VNT_STAT_VHIGH = v.vhigh ∧ d.get F.VNT_VDRV_VDRV = v.vdrv % 1024 ∧
         d.flag F.THM_STAT_DFAIL = v.dfail ∧
         (∀ t : Int, v.temp = some t → v.dfail = false → -2048 ≤ t → t < 2048 →
           d.getI F.THM_TEMP_TEMP = t ∧ d.flag F.THM_STAT_VALID = true)) ∧
     (s.dev.link.status = some v → v.vrst = false → ∀ k, k < 8 →
       (∀ j, j < 8 → j ≠ k → (carried j).code ≤ (v.axis j).st.code) → (v.axis k).st.code < (carried k).code →
       s.dev.link.stopReq = [] → s.dev.cst k = .armed → s.dev.jnl.ops = [] → Gives s (.statusPacket true) fun d =>
         d.cst k = .safe ∧ d.vst k = (v.axis k).st ∧ (∀ j, j < 8 → j ≠ k → d.cst j = s.dev.cst j) ∧
         d.bit F.DIE_DIS_DIS 0 k = true ∧ d.get F.DIE_DIS_COUNT = min (s.dev.get F.DIE_DIS_COUNT + 1) 65535 ∧ d.ev 117 = true)) ∧
  (∀ (s : State) (ok : Bool) (temp : BitVec 12),
     let lost := min (s.dev.get F.VNT_STAT_PKTLOST + if s.dev.link.lost then 0 else 1) 65535
     let v := s.dev.vent
     let hot := ((8 * v.cfg.tsd : Nat) : Int) ≤ temp.toInt
     (s.dev.link.await = none → exec .statusPacketTimeout s = .next s) ∧
     (s.dev.link.await ≠ none → s.dev.link.missed ≠ 3 → Gives s .statusPacketTimeout fun d =>
       d = { s.dev with regs := d.regs, link := { s.dev.link with await := none, status := none, lost := false, missed := s.dev.link.missed + 1 } } ∧
       d.get F.VNT_STAT_PKTLOST = lost ∧ s.dev.keepsRegs d [F.VNT_STAT.at_ 0]) ∧
     (s.dev.link.await ≠ none → s.dev.link.missed = 3 → Gives s .statusPacketTimeout fun d =>
       (∀ k, k < 8 → d.cst k = .safe) ∧ d.flag F.DIE_LINK_VSIL = true ∧ d.flag F.DIE_LINK_VSILL = true ∧ d.ev 116 = true) ∧
     (s.dev.flag F.THM_STAT_VALID = true → Gives s .thermalReadingExpiry fun d =>
       d = { s.dev with regs := d.regs, wdn := d.wdn } ∧
       s.dev.keepsRegs d [F.THM_STAT.at_ 0, F.SNT_STAT.at_ 0, F.EVT_STAT.at_ 3] ∧
       d.flag F.THM_STAT_VALID = false ∧ d.get F.THM_STAT_S = s.dev.get F.THM_STAT_S ∧ d.ev 113 = true ∧
       d.flag F.SNT_STAT_TJOK = false ∧ d.flag F.SNT_STAT_WINOK = false ∧
       (s.dev.flag F.SNT_STAT_WINOK = true → d.ev 121 = true) ∧
       (∀ x, s.dev.wdn.svc = some x → x.stop = 0 → d.wdn.svc = some { x with stop := 0x05 })) ∧
     (s.dev.flag F.THM_STAT_VALID = false → exec .thermalReadingExpiry s = .next s) ∧
     (v.inReset = true → exec (.diodeReading ok temp) s = .next s) ∧
     (v.inReset = false → Gives s (.diodeReading ok temp) fun d =>
       d = { s.dev with vent := d.vent } ∧ d.vent.dfail = (!ok) ∧ d.vent.temp = (if ok then some temp.toInt else v.temp) ∧
       d.vent.tsdPrev = (ok && decide hot) ∧
       (ok = true → hot → v.tsdPrev = true → v.tsdLatch = false →
         d.vent.tsdLatch = true ∧ ∀ k, k < 8 → (d.vent.axis k).tsd = true ∧ (d.vent.axis k).st = .safe ∧
           ((v.axis k).st ≠ .safe → (d.vent.axis k).act = .coast ∧
             ∀ m, m / 3 = k → (d.vent.leg m).h.on = false ∧ (d.vent.leg m).l.on = false)) ∧
       (ok = false ∨ ¬hot ∨ v.tsdPrev = false ∨ v.tsdLatch = true →
         d.vent.tsdLatch = v.tsdLatch ∧ d.vent.axes = v.axes ∧ d.vent.legs = v.legs)))

/-- R418 and R419: the Vent die challenges a request for an axis that may be armed and refuses any other; the warden
confirms a challenge that carries its nonce; the Vent die arms the axis when both nonces match its open challenge; the
acknowledgement makes the control die's state ARMED. A failed exchange shows its result; one that a heartbeat loss has met
is answered no more (R432). That GANG is cleared at arming (log entry 14) and that a request is unanswered in scan mode (log
entry 65) are the model's choices. -/
def Obligations.ArmingExchange : Prop :=
  ∀ (s : State) (k : Fin 8) (n1 n2 : BitVec 32),
    let v := s.dev.vent
    let a := v.axis k
    let off := v.inReset = true ∨ v.scan ≠ none ∨
      ∃ x, s.dev.link.arm = some x ∧ x.axis = k ∧ x.n1 = n1.toNat ∧ x.stage = .lost
    let may := a.st = .safe ∧ v.faulted k = false ∧ v.cfgOk = true ∧ v.dfail = false ∧ v.vlow = false ∧
      ∀ t, v.temp = some t → t < 8 * ((v.cfg.tsd - v.cfg.hsd : Nat) : Int)
    let nonce := (Config.nonce2 s.dev.free).toNat
    (off → exec (.armReq k n1) s = .next s) ∧
    (¬off → may → Gives s (.armReq k n1) fun d =>
      d.vent.axis k = { a with chal := some (n1.toNat, nonce) } ∧ d.vent.legs = v.legs ∧ d.regs = s.dev.regs ∧
      (∀ x, s.dev.link.arm = some x → x.axis = k → x.n1 = n1.toNat → x.stage = .req →
        d.link.arm = some { x with stage := .chal, n2 := nonce })) ∧
    (¬off → ¬may → Gives s (.armReq k n1) fun d => d = { s.dev with link := d.link } ∧
      (∀ x, s.dev.link.arm = some x → x.axis = k → x.n1 = n1.toNat → x.stage = .req →
        d.link.arm = some { x with stage := .nak, n2 := v.refuse k } ∧ 1 ≤ v.refuse k ∧ v.refuse k ≤ 6)) ∧
    (Gives s (.armChal k n1 n2) fun d => d = { s.dev with link := d.link } ∧
      (s.dev.wardenUp = false → d.link = s.dev.link) ∧
      (s.dev.wardenUp = true → ∀ x, s.dev.link.arm = some x → x.axis = k →
        (x.n1 ≠ n1.toNat → d.link.arm = some { x with badNonce := true }) ∧
        (x.n1 = n1.toNat → x.stage = .chal → d.link.arm = some { x with stage := .conf, n2 := n2.toNat, badNonce := false }) ∧
        (x.n1 = n1.toNat → x.stage ≠ .chal → d.link.arm = some x))) ∧
    (v.inReset = true → exec (.armConf k n1 n2) s = .next s) ∧
    (v.inReset = false → a.chal = some (n1.toNat, n2.toNat) → Gives s (.armConf k n1 n2) fun d =>
      (d.vent.axis k).st = .armed ∧ (d.vent.axis k).act = .none ∧ (d.vent.axis k).gang = false ∧
      (d.vent.axis k).chal = none ∧ (∀ j, j ≠ k.val → d.vent.axis j = v.axis j) ∧
      (∀ m, m / 3 = k.val → (d.vent.leg m).h.on = false ∧ (d.vent.leg m).l.on = false) ∧
      (∀ m, m / 3 ≠ k.val → d.vent.leg m = v.leg m) ∧ d.regs = s.dev.regs ∧
      (∀ x, s.dev.link.arm = some x → x.axis = k → x.stage = .conf → d.link.arm = some { x with stage := .done, badNonce := false })) ∧
    (v.inReset = false → a.chal ≠ some (n1.toNat, n2.toNat) → Gives s (.armConf k n1 n2) fun d =>
      d = { s.dev with link := d.link } ∧
      (∀ x, s.dev.link.arm = some x → x.axis = k → d.link.arm = some { x with badNonce := true })) ∧
    (s.dev.wardenUp = false → exec (.armAck k) s = .next s ∧ (∀ r, exec (.armNak k r) s = .next s) ∧
      exec .armExchangeTimeout s = .next s) ∧
    (∀ x, s.dev.wardenUp = true → s.dev.link.arm = some x →
      (x.axis = k → x.stage = .done → s.dev.jnl.toArm = [] → Gives s (.armAck k) fun d =>
        d = { s.dev with regs := d.regs, link := { s.dev.link with arm := none, acked := d.link.acked } } ∧
        d.link.acked.testBit k = true ∧ d.cst k = .armed ∧ (∀ j, j < 8 → j ≠ k.val → d.cst j = s.dev.cst j) ∧
        d.get F.DIE_ARM_RESULT = 1 ∧ d.get F.DIE_ARM_VREASON = 0 ∧
        d.get F.DIE_ARM_COUNT = min (s.dev.get F.DIE_ARM_COUNT + 1) 65535 ∧
        s.dev.keepsRegs d [F.DIE_ARM.at_ 0, F.DIE_AUTH.at_ 0]) ∧
      (x.axis ≠ k ∨ x.stage ≠ .done → exec (.armAck k) s = .next s) ∧
      (∀ reason : Fin 7, x.axis = k → x.stage = .nak → x.n2 = reason.val → s.dev.jnl.ops = [] → s.dev.jnl.toArm = [] →
        Gives s (.armNak k reason) fun d => d.link.arm = none ∧ d.get F.DIE_ARM_RESULT = 3 ∧
          d.get F.DIE_ARM_VREASON = reason.val ∧ (d.vent.axis k).chal = none ∧ s.dev.keepsRegs d [F.DIE_ARM.at_ 0]) ∧
      (s.dev.jnl.ops = [] → s.dev.jnl.toArm = [] → Gives s .armExchangeTimeout fun d =>
        d.link.arm = none ∧ d.get F.DIE_ARM_RESULT = (if x.badNonce then 4 else 2) ∧ d.get F.DIE_ARM_VREASON = 0 ∧
        s.dev.keepsRegs d [F.DIE_ARM.at_ 0])) ∧
    (s.dev.link.arm = none → exec .armExchangeTimeout s = .next s)

/-- R115 and R116: VNT_FCLR with GO sends a clear of the named axes and brake legs, or is refused while one is under way
or without a name; the confirmation clears the latches on the Vent die and their copies, and the result says whether
every named fault has gone. A LINK fault is cleared where each of the last two frames had a valid heartbeat (R425): this frame and the one before, or the
two before. A warden that a mismatch has stopped neither sends nor completes a clear (R383). That a GO in flight shows its
result at once is the model's choice (log entry 86). -/
def Obligations.FaultClear : Prop :=
  ∀ (s : State) (w : Word),
    let axes := (w.extractLsb' 0 8).toNat
    let brakes := (w.extractLsb' 8 4).toNat
    let fcnt := s.dev.get F.GEY_FCNT
    let steady := 2 ≤ s.dev.vent.hbGood ∧
      (s.dev.vent.hbFrame = fcnt ∨ (s.dev.vent.hbFrame + 1) % 2 ^ 40 = fcnt)
    let busy := s.dev.link.clr ≠ none ∨ (axes = 0 ∧ brakes = 0)
    (Gives s (.vntFclrGo w) fun d =>
      d = { s.dev with regs := d.regs, link := d.link } ∧ s.dev.keepsRegs d [F.VNT_FCLR.at_ 0] ∧
      d.get F.VNT_FCLR_AXES = axes ∧ d.get F.VNT_FCLR_BRAKES = brakes ∧
      (w.getLsbD 12 = false → d.link = s.dev.link ∧ d.get F.VNT_FCLR_RESULT = s.dev.get F.VNT_FCLR_RESULT) ∧
      (w.getLsbD 12 = true → busy → d.link = s.dev.link ∧ d.get F.VNT_FCLR_RESULT = 3) ∧
      (w.getLsbD 12 = true → ¬busy → s.dev.wdn.stopped = true → d.link = s.dev.link ∧ d.get F.VNT_FCLR_RESULT = 0) ∧
      (w.getLsbD 12 = true → ¬busy → s.dev.wdn.stopped = false → d.get F.VNT_FCLR_RESULT = 0 ∧
        ∃ c, d.link = { s.dev.link with clr := some c } ∧ c.axes = axes ∧ c.brakes = brakes ∧
          (∀ l, l < 24 → c.vdsh.testBit l = (axes.testBit (l / 3) && s.dev.flag F.LEG_FLT_VDSH l)) ∧
          (∀ k, k < 8 → c.trip.testBit k =
            (axes.testBit k && s.dev.flag (F.VNT_AFLT_TRIP.nth k) && !s.dev.tripLine k) ∧
            c.link.testBit k = (axes.testBit k && s.dev.flag (F.VNT_AFLT_LINK.nth k) && decide steady)))) ∧
    (s.dev.link.clr = none → exec .faultClearConfirm s = .next s) ∧
    (∀ c, s.dev.link.clr = some c → s.dev.jnl.clr = none → s.dev.wdn.stopped = false → Gives s .faultClearConfirm fun d =>
      d.link = { s.dev.link with clr := none, firstKept := d.link.firstKept } ∧
      (∀ l, l < 24 →
        ((d.vent.leg l).h.vds = ((s.dev.vent.leg l).h.vds && !c.vdsh.testBit l)) ∧
        ((d.vent.leg l).bstuv = ((s.dev.vent.leg l).bstuv && !c.bstuv.testBit l)) ∧
        (d.flag F.LEG_FLT_VDSH l = (s.dev.flag F.LEG_FLT_VDSH l && !c.vdsh.testBit l)) ∧
        (d.flag F.LEG_FLT_BSTUV l = (s.dev.flag F.LEG_FLT_BSTUV l && !c.bstuv.testBit l))) ∧
      (∀ k, k < 8 →
        (d.vent.axis k).trip = ((s.dev.vent.axis k).trip && !c.trip.testBit k) ∧
        d.flag (F.VNT_AFLT_TRIP.nth k) = (s.dev.flag (F.VNT_AFLT_TRIP.nth k) && !c.trip.testBit k) ∧
        (d.vent.axis k).st = (s.dev.vent.axis k).st) ∧
      (∀ b, b < 4 → (d.vent.brake b).sc = ((s.dev.vent.brake b).sc && !c.sc.testBit b)) ∧
      (d.get F.VNT_FCLR_RESULT = 1 ↔
        (∀ k, k < 8 → c.axes.testBit k = true → d.axisFaulted k = false) ∧
        (∀ b, b < 4 → c.brakes.testBit b = true → d.flag F.BRK_FLT_SC b = false ∧ (d.vent.brake b).sc = false)) ∧
      (d.get F.VNT_FCLR_RESULT = 1 ∨ d.get F.VNT_FCLR_RESULT = 2)) ∧
    (∀ c, s.dev.link.clr = some c → s.dev.wdn.stopped = true → Gives s .faultClearConfirm fun d =>
      d = { s.dev with vent := d.vent } ∧
      (∀ l, l < 24 → (d.vent.leg l).h.vds = ((s.dev.vent.leg l).h.vds && !c.vdsh.testBit l)) ∧
      (∀ k, k < 8 → (d.vent.axis k).trip = ((s.dev.vent.axis k).trip && !c.trip.testBit k)))

/-- R20, R78, R80, R82: at half the frame a leg with two carriers per frame begins its second one: the active duty is the
shadow duty, and the edges are those of R80 for it. R81, R90, R95: at its fine step an edge of a free leg drops one command, and
the other awaits its dead time; a high pulse lasts at least the minimum pulse (R84). A refresh runs its steps: it counts and its
low gate awaits the dead time; the low pulse lasts W (R90) and the high gate follows where the pattern calls for it. A brake
command ends. -/
def Obligations.CarriersAndEdges : Prop :=
  ∀ (s : State) (leg : Fin 24),
    let l := leg.val
    let u := s.dev.leg l
    let starts := s.dev.awake = true ∧ s.dev.sys.sealed = true ∧ s.dev.clk.ticked = true ∧ s.dev.ownsLeg l = true ∧
      s.dev.flag F.LEG_CFG_TWO l = true ∧ u.cAt = s.dev.clk.frameStart
    let len := s.dev.len - s.dev.len / 2
    let duty := (s.dev.reg (F.LEG_SDUTY.at_ l)).toNat
    let n0 := (duty * (8 * len) + 2 ^ 30) / 2 ^ 31
    let short := (s.dev.comm (s.dev.owner (l / 3))).short
    let dtf := 64 * (s.dev.get F.LEG_CFG_DT l + 1)
    let mf := 8 * s.dev.get F.LEG_CFG_MINPULSE l
    (¬starts → exec (.carrierBoundary leg) s = .next s) ∧
    (starts → Gives s (.carrierBoundary leg) fun d =>
      d.reg (F.LEG_ADUTY.at_ l) = s.dev.reg (F.LEG_SDUTY.at_ l) ∧
      (d.leg l).cAt = s.dev.clk.frameStart + s.dev.len / 2 ∧ (d.leg l).cLen = len ∧
      d.reg (F.LEG_SDUTY.at_ l) = s.dev.reg (F.LEG_SDUTY.at_ l) ∧
      ((n0 = 0 ∨ short = true) → d.get F.LEG_EDGE_HON l = 0 ∧ d.get F.LEG_EDGE_HOFF l = 0) ∧
      (short = false → duty ≤ 2 ^ 31 → dtf + mf ≤ n0 → dtf + mf ≤ 8 * len - n0 → s.dev.flag F.LEG_CFG_EDGE l = true →
        d.get F.LEG_EDGE_HON l = 0 ∧ d.get F.LEG_EDGE_HOFF l = n0) ∧
      (short = false → duty ≤ 2 ^ 31 → dtf + mf ≤ n0 → dtf + mf ≤ 8 * len - n0 → s.dev.flag F.LEG_CFG_EDGE l = false →
        let hon := min (8 * (s.dev.len / 4) - n0 / 2) (8 * len - n0)
        d.get F.LEG_EDGE_HON l = hon ∧ d.get F.LEG_EDGE_HOFF l = hon + n0)) ∧
    (let free := s.dev.flag F.LEG_STAT_OUTEN l = true ∧ s.dev.flag F.LEG_STAT_FLOAT l = false ∧ u.ref = .off
     let edge := fun e : PwmEdge => Instr.pwmCommandEdge ⟨leg.val, by omega⟩ e
     let hon := s.dev.get F.LEG_EDGE_HON l
     let hoff := s.dev.get F.LEG_EDGE_HOFF l
     let waits := fun (x d : Dev) (high : Bool) (t : Nat) => d.regs = x.regs ∧ (d.leg l).pend = some high ∧
       (d.leg l).pendAt = max t (8 * x.clk.now) + dtf ∧ (d.leg l).hcmd = false ∧ (d.leg l).lcmd = false ∧
       (∀ m, m ≠ l → d.leg m = x.leg m)
     (¬free → exec (edge .hon) s = .next s ∧ exec (edge .hoff) s = .next s) ∧
     (free → u.leaving = false → (s.dev.comm (s.dev.owner (l / 3))).short = false →
       (hon < hoff → 8 * s.dev.clk.now < 8 * u.cAt + hoff → u.hcmd = false → u.pend ≠ some true →
         let x := s.dev.toFine (8 * u.cAt + hon)
         Gives s (edge .hon) fun d => waits x d true (8 * u.cAt + hon)) ∧
       (hoff < 8 * u.cLen → u.hcmd = true → u.lcmd = false → u.pend ≠ some false →
         let t := max (8 * u.cAt + hoff) (u.hOnAt + mf)
         let x := s.dev.toFine t
         Gives s (edge .hoff) fun d => waits x d false t)) ∧
     (u.ref = .due → u.lcmd = false → u.pend ≠ some false → Gives s (edge .refHighOff) fun d =>
       s.dev.keepsRegs d [F.LEG_STAT.at_ l] ∧
       d.get F.LEG_STAT_REFCNT l = min (s.dev.get F.LEG_STAT_REFCNT l + 1) (2 ^ F.LEG_STAT_REFCNT.width - 1) ∧
       (d.leg l).ref = .lowWait ∧ (d.leg l).pend = some false ∧ (d.leg l).pendAt = 8 * s.dev.clk.now + dtf ∧
       (d.leg l).hcmd = false) ∧
     (u.ref = .low → u.leaving = false → (s.dev.comm (s.dev.owner (l / 3))).short = false →
       let t := max (u.lOnAt + max (320 * (s.dev.get F.LEG_CFG_REFW l + 1)) mf) (8 * s.dev.clk.now)
       let last := t + dtf - 8 * u.cAt
       let x := s.dev.toFine t
       (s.dev.flag F.LEG_STAT_FLOAT l = true → Gives s (edge .refLowOff) fun d =>
         d.regs = x.regs ∧ (d.leg l).ref = .off ∧ (d.leg l).pend = none ∧ (d.leg l).lcmd = false) ∧
       (s.dev.flag F.LEG_STAT_FLOAT l = false → hon ≤ last → last < hoff → Gives s (edge .refLowOff) fun d =>
         d.regs = x.regs ∧ (d.leg l).ref = .highWait ∧ (d.leg l).pend = some true ∧ (d.leg l).pendAt = t + dtf ∧
         (d.leg l).lcmd = false))) ∧
    (∀ b : Fin 4, (s.dev.vent.brake b).cmd = true →
      let n := ((s.dev.reg (F.BRK_DUTY.at_ b)).toNat * (8 * s.dev.len) + 2 ^ 30) / 2 ^ 31
      n < 8 * s.dev.len →
      let x := s.dev.at_ (n / 8)
      Gives s (.pwmCommandEdge ⟨24 + b.val, by omega⟩ .hoff) fun d =>
        d = { x with vent := d.vent } ∧ (d.vent.brake b).cmd = false ∧
        (∀ j, j ≠ b.val → d.vent.brake j = x.vent.brake j))

/-! ### Resets, boot and seal (chapters 2, 18 and 19) -/

/-- R407, R410 to R416: what each cause of reset does. The pin, a brownout, a lost clock, the supervisor and a lockstep
mismatch keep the retention domain, a power-on reset does not; a reset under way is not entered again, and one that meets
a programming pulse waits for it, while a mismatch stops the warden at once (R383). A pulse on RST_N below 200 ns is ignored, one of 200 ns to 1 µs may be (log entry 21).
The word of the warden's record that takes a mismatch's cause is the model's choice (log entry 33), and so are (log entry 63)
that of several causes waiting for a pulse the first is taken, that a warm cause during a reset has no effect, and that the
banks M0 to M13 read 0 from the entry into a reset on. -/
def Obligations.ResetCauses : Prop :=
  ∀ (s : State),
    let goes := fun (c : Instr) (n : Nat) => Gives s c fun d => ResetFrom s.dev d n
    let stays := fun (c : Instr) => exec c s = .next s
    (s.dev.flag F.SNT_STAT_PROG = false →
      (Gives s .powerOnReset fun d => ResetFrom s.dev d 0 ∧ d.tap.instr = .idcode ∧ d.sys.vioLow = true) ∧
      exec (.supplyMonitorCrossing .vio true true) s = exec .powerOnReset s) ∧
    (s.dev.awake = true → s.dev.flag F.SNT_STAT_PROG = false →
      goes (.warmReset .pin) 1 ∧ goes (.warmReset .brownout) 2 ∧ goes (.warmReset .clock) 3 ∧ goes .pllLockLoss 3 ∧
      goes .supervisorTimeout 5 ∧ (s.dev.wdn.stopped = false → ∀ w, Gives s (.lockstepMismatch w) fun d =>
        ResetFrom (s.dev.conWrite causeWord w) d 4) ∧
      goes (.supplyMonitorCrossing .vcore true true) 2 ∧ goes (.supplyMonitorCrossing .vdda true true) 2 ∧
      (∀ ns, 1000 ≤ ns → goes (.rstNLow ns) 1) ∧
      (∀ ns, 200 ≤ ns → ns < 1000 → Gives s (.rstNLow ns) fun d =>
        d = { s.dev with free := s.dev.free + 1 } ∨ ResetFrom s.dev d 1)) ∧
    (∀ ns, ns < 200 → stays (.rstNLow ns)) ∧
    (s.dev.awake = false → (∀ c, stays (.warmReset c)) ∧ stays .supervisorTimeout ∧ ∀ w, stays (.lockstepMismatch w)) ∧
    (s.dev.awake = true → s.dev.flag F.SNT_STAT_PROG = true → ∀ c, Gives s (.warmReset c) fun d =>
      d = { s.dev with sys := { s.dev.sys with held := some (s.dev.sys.held.getD (warmCode c)) } }) ∧
    (s.dev.wardenUp = true → s.dev.flag F.SNT_STAT_PROG = true → ∀ w, Gives s (.lockstepMismatch w) fun d =>
      d = { s.dev with sys := { s.dev.sys with held := some (s.dev.sys.held.getD 4) }, con := d.con,
                       wdn := { s.dev.wdn with stopped := true } } ∧ d.cal causeWord = w) ∧
    (s.dev.wdn.stopped = true → ∀ w, stays (.lockstepMismatch w)) ∧
    (Gives s (.supplyMonitorCrossing .vcore true false) fun d => d = { s.dev with sys := { s.dev.sys with vcoreLow := false } }) ∧
    (Gives s (.supplyMonitorCrossing .vdda true false) fun d => d = { s.dev with sys := { s.dev.sys with vddaLow := false } }) ∧
    (Gives s (.supplyMonitorCrossing .vio true false) fun d => d = { s.dev with sys := { s.dev.sys with vioLow := false } }) ∧
    stays (.supplyMonitorCrossing .vcore false true) ∧
    (∀ below, s.dev.awake = true → Gives s (.supplyMonitorCrossing .vio false below) fun d =>
      d.flag F.DIE_SUP_VIOW = below ∧ d.sys.vioWarn = below ∧
      (below = true → s.dev.sys.vioWarn = false → d.flag F.DIE_SUP_VIOWL = true ∧ d.ev 115 = true) ∧
      (below = false ∨ s.dev.sys.vioWarn = true → d.flag F.DIE_SUP_VIOWL = s.dev.flag F.DIE_SUP_VIOWL) ∧
      s.dev.keepsRegs d [F.DIE_SUP.at_ 0, F.EVT_STAT.at_ 3])

/-- R29 to R31, R54, R60, R318, R373, R390, R410: a reset is released once its conditions have cleared; the warden then
has read Sinter, and waits for a push where BOOTMODE or two refused copies say so. A copy that passes its check awaits
the seal, and stands staged in Caldera, five bytes to a word from M0 on (R32; the packing of a flash copy is that of a push, log
entry 62); one that does not shows its error. A push is refused outside WAIT_HOST and FAILED; what the words of a pushed image with a
standing error read as is the model's choice (log entry 87). -/
def Obligations.BootAndImage : Prop :=
  ∀ (s : State),
    let st := s.dev.get F.SYS_IMGSTAT_STATE
    let may := s.dev.mayLoad = true
    let ok := fun (m : Image) (source : Nat) (d : Dev) =>
      d.img = { s.dev.img with staged := some { m with source := source } } ∧ d.get F.SYS_IMGSTAT_STATE = 0 ∧
      s.dev.keepsRegs d ([F.SYS_IMGSTAT.at_ 0] ++ if source = 3 then [F.CON_ECC.at_ 0, F.EVT_STAT.at_ 3] else [])
    let bad := fun (e : ImgErr) (push : Bool) (d : Dev) => d.img.staged = none ∧ d.get F.SYS_IMGERR_CODE = e.code % 256 ∧
      d.get F.SYS_IMGERR_TYPE = e.typ % 256 ∧ d.get F.SYS_IMGERR_INSTANCE = e.inst % 256 ∧
      s.dev.keepsRegs d ([F.SYS_IMGSTAT.at_ 0, F.SYS_IMGERR.at_ 0, F.SYS_IMGOFF.at_ 0] ++
        if push then [F.CON_ECC.at_ 0, F.EVT_STAT.at_ 3] else [])
    (∀ high reads,
      (s.dev.awake = true ∨ s.dev.sys.clear = false → exec (.resetRelease high reads) s = .next s) ∧
      (s.dev.awake = false → s.dev.sys.clear = true → Gives s (.resetRelease high reads) fun d =>
        d.awake = true ∧ d.clk.base = s.dev.clk.now ∧ d.flag F.DIE_SUP_PLLOK = true ∧ d.flag F.SNT_STAT_BOOTDONE = true ∧
        d.get F.DIE_RSTC_CAUSE = s.dev.get F.DIE_RSTC_CAUSE ∧ d.con = s.dev.con ∧ d.jnl = s.dev.jnl ∧
        (s.dev.get F.DIE_RSTC_CAUSE = 0 → high = true → d.get F.SYS_IMGSTAT_STATE = 4) ∧
        (s.dev.get F.DIE_RSTC_CAUSE = 0 → high = false → d.get F.SYS_IMGSTAT_STATE = st))) ∧
    (s.dev.awake = true → s.dev.sys.portUp = false → Gives s .hostPortReady fun d =>
      d.sys = { s.dev.sys with portUp := true } ∧ d.flag F.HST_STAT_RSTF = true ∧ s.dev.keepsRegs d [F.HST_STAT.at_ 0]) ∧
    (s.dev.awake = false ∨ s.dev.sys.portUp = true → exec .hostPortReady s = .next s) ∧
    (s.dev.awake = true → Gives s .calderaInitDone fun d => d = { s.dev with sys := { s.dev.sys with calInit := false } }) ∧
    (s.dev.awake = false → exec .calderaInitDone s = .next s) ∧
    (∀ copy,
      (¬may ∨ st ≠ 0 ∨ 2 ≤ s.dev.img.nextCopy → exec (.imageLoad copy) s = .next s) ∧
      (may → st = 0 → s.dev.img.nextCopy < 2 →
        (∀ m, s.dev.checkImage s.otp copy none = .ok m → Gives s (.imageLoad copy) fun d => ok m (s.dev.img.nextCopy + 1) d ∧
          let n := le copy 8 4
          ∀ j, j < (n + 4) / 5 → (d.cal j).toNat = leNat (((copy.take n).drop (5 * j)).take 5)) ∧
        (∀ e, s.dev.checkImage s.otp copy none = .error e → Gives s (.imageLoad copy) fun d => bad e false d ∧
          d.img.nextCopy = s.dev.img.nextCopy + 1 ∧
          d.get F.SYS_IMGSTAT_STATE = if s.dev.img.nextCopy = 0 then 0 else 4))) ∧
    (∀ w : Word,
      let n := (w.extractLsb' 0 21).toNat
      let r := s.dev.checkImage s.otp (s.dev.pushed n) (some n)
      (s.dev.hostUp = false ∨ w.getLsbD 39 = false → exec (.sysImgpushGo w) s = .next s) ∧
      (s.dev.hostUp = true → w.getLsbD 39 = true → (st ≠ 4 ∧ st ≠ 2 ∨ ¬may) → Gives s (.sysImgpushGo w) fun d =>
        s.dev.regsOnly d [F.HST_STAT.at_ 0] ∧ d.get F.HST_STAT_LSTAT = 1 ∧ d.get F.HST_STAT_LADDR = 0x14) ∧
      (s.dev.hostUp = true → w.getLsbD 39 = true → may → (st = 4 ∨ st = 2) →
        (∀ m, r = .ok m → Gives s (.sysImgpushGo w) (ok m 3)) ∧
        (∀ e, r = .error e → Gives s (.sysImgpushGo w) fun d => bad e true d ∧ d.get F.SYS_IMGSTAT_STATE = 2)))

/-- R51, R56, R57, R59, R140, R197: the seal writes what the image's records wrote and leaves every other bit, makes every
checkpoint invalid and sends the configuration; an image whose LIVE fields break LIMITS is refused, and what its records wrote
returns to the reset values (log entry 62, the model's choice); the Vent die's confirmation completes it and keeps the digest (R60; its words in M14
are the model's choice, log entry 33). From it on a brake leg without a record has no comparator (R93). That a returned CRC that differs ends the Vent die's
configuration and what RESENDS counts are the model's choices (log entry 15). The warden's own advance waits for a host service
(R400; log entry 70), and stays pending where no bit of the counter is left (log entry 36); both are the model's choices. A configuration that is not confirmed is sent three times in
all: then the image is refused, or, after a Vent-die reset, CFGFAIL is set with EV116. -/
def Obligations.SealAndConfiguration : Prop :=
  ∀ (s : State),
    let l := s.dev.link
    let sends := fun (c : Instr) (v : Vent → Vent) => GivesServed s c fun d =>
      d.link = { l with cfg := some s.dev.ventCfg, cfgTry := l.cfgTry + 1 } ∧ d.vent = v s.dev.vent ∧
      d.get F.DIE_LINK_RESENDS = min (s.dev.get F.DIE_LINK_RESENDS + 1) 255 ∧ s.dev.keepsRegs d [F.DIE_LINK.at_ 0]
    let gives_up := fun (c : Instr) (v : Vent → Vent) => GivesServed s c fun d =>
      d.link = { l with cfg := none, cfgTry := 0 } ∧ d.vent = v s.dev.vent ∧ d.flag F.DIE_LINK_CFGFAIL = true ∧
      d.ev 116 = true ∧ s.dev.keepsRegs d [F.DIE_LINK.at_ 0, F.EVT_STAT.at_ 3]
    let took := fun (c : VentCfg) (d : Dev) =>
      d.vent = Vent.brakesUpdate (s.dev.vent.takeCfg c) s.dev.clk.now ∧ d.vent.cfg = c ∧ d.vent.cfgOk = true ∧
      d.vent.vrst = false ∧ (∀ b, b < 4 → uget c.brakes b = none → (d.vent.brake b).cmp = false)
    let lost := fun v : Vent => { v with cfgOk := false }
    (s.dev.img.staged = none ∨ s.dev.wardenUp = false ∨ s.dev.img.sealing = true ∨ s.dev.sys.sealed = true →
      exec .seal s = .next s) ∧
    (∀ m, s.dev.img.staged = some m → s.dev.wardenUp = true → s.dev.img.sealing = false → s.dev.sys.sealed = false →
      let m := m.derive s.dev
      let keys := m.regs.map Prod.fst
      let adc := (List.range 16).map F.ADC_STAT.at_
      (∀ e, m.liveErr s.dev = some e → Gives s .seal fun d =>
        d.img.cur = {} ∧ d.img.staged = none ∧ d.img.sealing = false ∧ d.get F.SYS_IMGERR_CODE = e.code % 256 ∧
        d.link = l ∧ d.vent = s.dev.vent ∧ d.sys = s.dev.sys ∧ d.jnl = s.dev.jnl ∧
        (let after := [F.SYS_IMGSTAT.at_ 0, F.SYS_IMGERR.at_ 0, F.SYS_IMGOFF.at_ 0] ++ adc ++
          (List.range 256).map F.ACC_TSTAT.at_
         (∀ a ∈ keys, a ∉ after → d.reg a = (regReset a &&& m.mask a) ||| (s.dev.reg a &&& ~~~(m.mask a))) ∧
         s.dev.keepsRegs d (keys ++ after))) ∧
      (m.liveErr s.dev = none → Gives s .seal fun d => d.img = { s.dev.img with cur := m, sealing := true } ∧ d.sys = s.dev.sys ∧
        (∀ a ∈ keys, a ∉ adc →
          d.reg a = (tget s.dev.reg m.regs a &&& m.mask a) ||| (s.dev.reg a &&& ~~~(m.mask a))) ∧ s.dev.keepsRegs d (keys ++ adc) ∧
        (∀ b, b < 16 → F.ADC_CAL.at_ b ∈ keys → F.ADC_STAT.at_ b ∉ keys →
          d.flag F.ADC_STAT_FROZEN b = (d.reg (F.ADC_CAL.at_ b)).getLsbD 0) ∧
        d.link.cfg = some d.ventCfg ∧ d.link.cfgTry = 1 ∧
        (∀ h, h < 16 → (d.cal (ckptAt (h / 2) (h % 2) + 0x40)).getLsbD 39 = false) ∧ d.vent = s.dev.vent)) ∧
    (l.cfg = none ∧ s.dev.wardenUp = true ∨ s.dev.wardenUp = false →
      exec .ventConfigTimeout s = .next s ∧ ∀ same, exec (.ventConfigConfirm same) s = .next s) ∧
    (∀ c, l.cfg = some c → s.dev.wardenUp = true →
      (l.cfgTry < 3 → sends .ventConfigTimeout id) ∧
      (3 ≤ l.cfgTry → s.dev.img.sealing = false → gives_up .ventConfigTimeout id) ∧
      (s.dev.vent.inReset = true → ∀ same, exec (.ventConfigConfirm same) s = .next s) ∧
      (s.dev.vent.inReset = false →
        (l.cfgTry < 3 → sends (.ventConfigConfirm false) lost) ∧
        (3 ≤ l.cfgTry → s.dev.img.sealing = false → gives_up (.ventConfigConfirm false) lost) ∧
        (3 ≤ l.cfgTry → s.dev.img.sealing = true → GivesServed s (.ventConfigConfirm false) fun d =>
          d.img.cur = {} ∧ d.img.sealing = false ∧ d.img.staged = none ∧ d.get F.SYS_IMGERR_CODE = 0x14 ∧ d.link.cfg = none) ∧
        (s.dev.img.sealing = false → GivesServed s (.ventConfigConfirm true) fun d =>
          took c d ∧
          d.link = { l with cfg := none, cfgTry := 0, rstArm := true } ∧ d.flag F.VNT_STAT_CFGOK = true ∧
          s.dev.keepsRegs d [F.VNT_STAT.at_ 0] ∧ d.sys = s.dev.sys) ∧
        (s.dev.img.sealing = true → s.dev.sys.retDigest = none → GivesServed s (.ventConfigConfirm true) fun d =>
          let m := s.dev.img.cur
          d.sys = { s.dev.sys with sealed := true, retDigest := some m.digest } ∧
          took c d ∧ d.link.rstArm = true ∧
          d.img = { s.dev.img with staged := none, sealing := false } ∧
          d.get F.SYS_IMGSTAT_STATE = (if m.diag then 3 else 1) ∧ d.get F.SYS_IMGSTAT_SOURCE = m.source % 4 ∧
          d.get F.SYS_IMGSTAT_ROLLBACK = m.rollback % 2048 ∧ d.get F.SYS_IMGERR_CODE = 0 ∧
          (∀ n, n < 8 → d.cal (calAddr 14 0x7801 + n) = wordN (m.digest / 2 ^ (32 * (7 - n)) % 2 ^ 32))))) ∧
    (let asks := s.dev.wardenUp = true ∧ s.dev.sys.sealed = true ∧ s.dev.img.cur.advance = true ∧
        s.dev.rollbackValue s.otp imageCounter < s.dev.img.cur.rollback
     let wants := asks ∧ s.dev.wdn.svc = none
     let v := s.dev.rollbackValue s.otp imageCounter
     let unset := fun b => (s.dev.rollWord s.otp (0x380 + b / 40)).getLsbD (b % 40) = false
     (¬asks → exec .rollbackAdvance s = .next s) ∧
     (∀ x, asks → s.dev.wdn.svc = some x → Gives s .rollbackAdvance fun d =>
       d = { s.dev with wdn := { s.dev.wdn with advWaits := s.dev.wdn.advWaits || !x.own } }) ∧
     (wants → s.dev.windowOpen = false → Gives s .rollbackAdvance fun d =>
       s.dev.regsOnly d [F.SYS_IMGSTAT.at_ 0] ∧ d.flag F.SYS_IMGSTAT_ADV_PENDING = true) ∧
     (wants → s.dev.windowOpen = true → (∀ b, b < 1280 → v ≤ b → ¬unset b) → Gives s .rollbackAdvance fun d =>
       s.dev.regsOnly d [F.SYS_IMGSTAT.at_ 0] ∧ d.flag F.SYS_IMGSTAT_ADV_PENDING = true) ∧
     (wants → s.dev.windowOpen = true → (∃ b, b < 1280 ∧ v ≤ b ∧ unset b) → Gives s .rollbackAdvance fun d =>
       s.dev.keepsRegs d [F.SNT_STAT.at_ 0] ∧ d.flag F.SNT_STAT_PROG = true ∧
       ∃ r, d.wdn.svc = some { code := 7, roll := some r, own := true } ∧ r.base = imageCounter ∧ r.bit < 1280 ∧
         r.left = s.dev.img.cur.rollback - s.dev.rollbackValue s.otp imageCounter))

/-! ### Frames, slots and commits (chapter 3) -/

/-- R18, R20, R62, R67, R70, R73, R74, R80, R83, R89, R90, R95, R127, R136, R147, R167, R168, R237, R243, R275, R429: the tick
of a sealed device is its parts in this order, and each part does what its rules say, whatever device it is given: the frame
counter counts from the first tick's 0; a slot action that has not started is dropped; the throttle scale is that of R429; the
held sets take the frame's sums, and the feedback units their position and the speed over the window; a bank starts or
restarts; an accepted commit swaps the tables; the length of the frame follows the master by at most SLEW; a unit in TRACK
takes the observer's report, and its state is latched; a leg takes its shadow duty with the edges of R80, its float and its
refresh; a brake leg takes the frame's largest duty; the free reserves take the axes that they shadow. Before the seal and in
reset no tick occurs. The order of the parts (log entry 68) and the range of the phase error of an odd period (log entry 80) are
the model's choices. -/
def Obligations.GeyserTick : Prop :=
  (∀ s : State, s.dev.awake = false ∨ s.dev.sys.sealed = false → exec .geyserTick s = .next s) ∧
  (∀ s : State, s.dev.awake = true → s.dev.sys.sealed = true → Gives s .geyserTick fun d =>
    ∃ o f : Dev, o = (if s.dev.clk.ticked then (s.dev.at_ s.dev.len).serveLate else s.dev).frameEnd.openFrame ∧
      f = (o.throttleTick.latchLive.latchHeld.each (List.range 16) fun b d => d.bankTick b).swapTick.phaseTick ∧
      d = ((f.axesTick.legsTick.modJnl Journal.tick).patrolTick.freshTick).canTick) ∧
  (∀ s : State, s.dev.awake = true → s.dev.sys.sealed = true → Gives s .geyserTick fun d =>
    d.get F.GEY_FCNT = (if s.dev.clk.ticked then (s.dev.get F.GEY_FCNT + 1) % 2 ^ 40 else 0) ∧
    d.clk.ticked = true ∧ d.clk.frameStart = d.clk.now ∧ d.clk.base = s.dev.clk.base ∧
    d.clk.now = (if s.dev.clk.ticked then max s.dev.clk.now (s.dev.clk.frameStart + s.dev.len) else s.dev.clk.now) ∧
    d.gey.started = 0 ∧ d.gey.late = 0 ∧ d.gey.ran = 0 ∧ d.gey.syncAt = some d.clk.now ∧ d.gey.prevLen = s.dev.len ∧
    d.gey.s16 = s.dev.throttle) ∧
  ∀ d : Dev,
    (let o := d.openFrame
     o.get F.GEY_FCNT = (if d.clk.ticked then (d.get F.GEY_FCNT + 1) % 2 ^ 40 else 0) ∧ o.clk.ticked = true ∧
     o.clk.frameStart = d.clk.now ∧ o.clk.now = d.clk.now ∧ o.gey.started = 0 ∧ o.gey.late = 0 ∧ o.gey.syncAt = some d.clk.now ∧
     o.gey.prevLen = d.len ∧ d.keepsRegs o [F.GEY_FCNT.at_ 0]) ∧
    (let ex := max 0 (d.getI F.THM_TEMP_TEMP - 8 * (d.get F.THM_LIM_TTHR : Int))
     let s16 : Int := 65536 - (d.get F.THM_SLOPE_KS : Int) * ex / 8
     let smin : Int := d.get F.THM_SLOPE_SMIN
     let o := d.throttleTick
     ((o.get F.THM_STAT_S : Nat) : Int) = (if d.flag F.THM_STAT_VALID then max smin (min 65536 s16) else smin) ∧
     o.gey.s16 = o.get F.THM_STAT_S ∧ d.keepsRegs o [F.THM_STAT.at_ 0]) ∧
    (∀ tag n, tag < 256 → n < 256 → (d.acc n).cnt < 2 ^ F.ACC_HCNT_CNT.width →
      let o := d.accTick tag n
      o.reg (F.ACC_HSUM.at_ n) = BitVec.ofInt 40 (d.acc n).sum ∧ o.get F.ACC_HCNT_CNT n = (d.acc n).cnt ∧
      o.get F.ACC_HCNT_TAG n = tag ∧ (o.acc n).sum = 0 ∧ (o.acc n).cnt = 0 ∧ (∀ m, m ≠ n → o.acc m = d.acc m) ∧
      d.keepsRegs o [F.ACC_HSUM.at_ n, F.ACC_HCNT.at_ n, F.ACC_HMM.at_ n]) ∧
    (d.gey.commit = none → d.swapTick = d) ∧
    (∀ c, d.gey.commit = some c →
      (c.validated = true → c.ticksLeft = 1 →
        let o := d.swapTick
        (∀ i, i < 32 → o.reg (F.GEY_ASLOT.at_ i) = d.reg (F.GEY_SLOT.at_ i)) ∧ o.get F.GEY_CSTAT_STATE = 3 ∧
        o.get F.GEY_CSTAT_SWAPF = d.get F.GEY_FCNT % 65536 ∧ o.gey.commit = none ∧ o.ev 125 = true) ∧
      (c.validated = false ∨ c.ticksLeft ≠ 1 → d.swapTick.regs = d.regs ∧
        d.swapTick.gey.commit = some { c with ticksLeft := max 1 (c.ticksLeft - 1) })) ∧
    (d.gey.master = none ∨ d.flag F.GEY_SYNC_FOLLOW = false →
      d.phaseTick.get F.GEY_SSTAT_LEN = d.get F.GEY_PERIOD_PERIOD ∧ d.keepsRegs d.phaseTick [F.GEY_SSTAT.at_ 0]) ∧
    (∀ edge, d.gey.master = some edge → d.flag F.GEY_SYNC_FOLLOW = true →
      let p : Int := d.get F.GEY_PERIOD_PERIOD
      let slew : Int := d.get F.GEY_SYNC_SLEW
      let err := d.phaseTick.getI F.GEY_SSTAT_ERR
      0 < p → slew < p → p + slew < 65536 →
        -(p / 2) ≤ err ∧ err < p - p / 2 ∧
        (∃ n : Int, err = (d.clk.now : Int) - (edge - d.get F.GEY_SYNC_COMP + d.get F.GEY_SYNC_PHASE) + n * p) ∧
        ((d.phaseTick.get F.GEY_SSTAT_LEN : Nat) : Int) = p - max (-slew) (min slew err)) ∧
    (∀ b, b < 4 → (d.brk b).next < 2 ^ 40 →
      let o := d.brakeTick b
      o.get F.BRK_DUTY_DUTY b = (d.brk b).next ∧ o.flag F.BRK_STAT_RAMPD b = (d.brk b).wrote ∧
      (o.brk b).next = 0 ∧ (o.brk b).wrote = false ∧
      ((o.vent.brake b).cmd = decide (2 ^ 31 ≤ (d.brk b).next * (8 * d.len) + 2 ^ 30))) ∧
    ((∀ s, s < 32 → slotAction (d.aslot s) ≠ 0 → d.gey.started.testBit s = true) → d.dropSlots = d) ∧
    (∀ s, s < 32 →
      let o := d.dropSlot s
      o.get F.GEY_OVR_DROP = min (d.get F.GEY_OVR_DROP + 1) (2 ^ F.GEY_OVR_DROP.width - 1) ∧ o.get F.GEY_OVR_LSLOT = s ∧
      o.ev 126 = true ∧ (slotAction (d.aslot s) ≠ 1 → d.keepsRegs o [F.GEY_OVR.at_ 0, F.EVT_STAT.at_ 3]) ∧
      (slotAction (d.aslot s) = 1 → ∀ k, k < 8 → (slotMask (d.aslot s)).testBit k = true → d.gey.ran.testBit k = false →
        d.engineOf k ≠ none → (o.axis k).ovr = true ∧ o.ev (8 * k + 6) = true)) ∧
    (∀ b, b < 16 →
      let u := d.bank b
      let sync := d.flag F.ADC_CTL_SYNC (if d.get F.ADC_CTL_MODE (b / 2 * 2) = 0 then b else b / 2 * 2) = true
      let o := d.bankTick b
      (u.started = false → d.flag F.ADC_STAT_REFOK b = true → 0 < d.seqLen b →
        o.flag F.ADC_STAT_RUN b = true ∧ o.bank b = { u with started := true, pos := 0, slice := 0, restart := false }) ∧
      (u.started = false → d.flag F.ADC_STAT_REFOK b = false → o = d) ∧
      (u.started = true → d.flag F.ADC_STAT_RUN b = true → sync → o.regs = d.regs ∧ o.bank b = { u with restart := true }) ∧
      (u.started = true → d.flag F.ADC_STAT_RUN b = false ∨ ¬sync → o = d)) ∧
    (∀ tag u k, tag < 256 → u < 8 → d.axisOfFbk u = some k →
      let x := d.fbk u
      let w := d.get F.FBK_CFG_WIN u + 1
      let frames := ((d.reg (F.FBK_LPOS.at_ u)).toNat, x.edgeF, x.edgeB) :: x.hist
      let fresh := x.valid = true ∧ w ≤ x.validTicks
      let still := ∀ f ∈ frames.take w, f.2 = (false, false)
      let moved := signed 40 ((d.reg (F.FBK_LPOS.at_ u)).toNat + 2 ^ 40 - (frames.getD w (0, false, false)).1)
      let o := d.fbkTick tag u
      o.reg (F.FBK_HPOS.at_ u) = d.reg (F.FBK_LPOS.at_ u) ∧ o.get F.FBK_HAMP_TAG u = tag ∧
      (x.begun = true → o.get F.FBK_HAGE_AGE u = min (d.clk.now - x.lastAt) 65535) ∧
      o.flag F.FBK_STAT_VALID u = x.valid ∧ (o.flag F.FBK_STAT_SPDV u = true ↔ fresh) ∧
      (¬fresh ∨ still → o.reg (F.FBK_SPD.at_ u) = 0) ∧
      (fresh → ¬still → o.reg (F.FBK_SPD.at_ u) = satWord (moved * (d.get F.FBK_SPDSC_SCALE u : Int) / (w * 65536 : Nat))) ∧
      (o.fbk u).edgeF = false ∧ (o.fbk u).edgeB = false ∧ (o.fbk u).valid = x.valid) ∧
    (∀ l, l < 24 → (d.ownsLeg l = false → d.tickCarrier l = d) ∧ (d.ownsLeg l = true →
      let u := d.leg l
      let len := if d.flag F.LEG_CFG_TWO l then d.len / 2 else d.len
      let peak := if d.flag F.LEG_CFG_TWO l then d.len / 4 else d.len / 2
      let duty := (d.reg (F.LEG_SDUTY.at_ l)).toNat
      let n0 := (duty * (8 * len) + 2 ^ 30) / 2 ^ 31
      let least := 64 * (d.get F.LEG_CFG_DT l + 1) + 8 * d.get F.LEG_CFG_MINPULSE l
      let short := (d.comm (d.owner (l / 3))).short
      let full := duty ≤ 2 ^ 31 ∧ short = false ∧ least ≤ n0 ∧ least ≤ 8 * len - n0
      let o := d.tickCarrier l
      let due := o.get F.LEG_CFG_BSTMAX l ≤ o.get F.LEG_STAT_BCNT l ∧ o.get F.LEG_EDGE_HON l = 0 ∧
        0 < o.get F.LEG_EDGE_HOFF l ∧ 8 * len ≤ o.get F.LEG_EDGE_HOFF l ∧ short = false
      let float := (u.cfloat || (d.flag F.LEG_STAT_ENTRY l && !u.written)) || (d.comm (d.owner (l / 3))).allFloat
      o.reg (F.LEG_ADUTY.at_ l) = d.reg (F.LEG_SDUTY.at_ l) ∧ (o.leg l).cAt = d.clk.frameStart ∧ (o.leg l).cLen = len ∧
      o.get F.LEG_STAT_BCNT l = (if u.lowSeen then 0 else min (d.get F.LEG_STAT_BCNT l + 1) (2 ^ F.LEG_STAT_BCNT.width - 1)) ∧
      (n0 = 0 ∨ short = true → o.get F.LEG_EDGE_HON l = 0 ∧ o.get F.LEG_EDGE_HOFF l = 0) ∧
      (full → d.flag F.LEG_CFG_EDGE l = true → o.get F.LEG_EDGE_HON l = 0 ∧ o.get F.LEG_EDGE_HOFF l = n0) ∧
      (full → d.flag F.LEG_CFG_EDGE l = false → o.get F.LEG_EDGE_HON l = min (8 * peak - n0 / 2) (8 * len - n0) ∧
        o.get F.LEG_EDGE_HOFF l = min (8 * peak - n0 / 2) (8 * len - n0) + n0) ∧
      o.flag F.LEG_STAT_ENTRY l = (d.flag F.LEG_STAT_ENTRY l && !u.written) ∧
      o.flag F.LEG_STAT_FLOAT l = (d.flag F.LEG_STAT_OUTEN l && float) ∧
      (d.flag F.LEG_STAT_OUTEN l = true → float = false → u.ref = .off ∨ u.ref = .due →
        (o.leg l).ref = if due then .due else .off))) ∧
    (∀ k (o : RunOut), k < 8 →
      let a := d.get F.AX_CFG_OBSREP k
      let v := fun i => d.reg (F.AX_REP.at_ k + a + i)
      let c := d.comm k
      (c.st ≠ .track ∨ 6 ≤ a → d.observerLoad k o = d) ∧
      (c.st = .track → a < 6 → (d.observerLoad k o).regs = d.regs ∧ (d.observerLoad k o).comm k = { c with
        g := if o.repMask.testBit a then (v 0).toNat % 2 ^ 32 * 65536 else c.g
        rate := if o.repMask.testBit (a + 1) then (v 1).toInt else c.rate
        wen := if o.repMask.testBit (a + 2) then (v 2).getLsbD 0 else c.wen })) ∧
    (∀ k, k < 8 → d.primary k = true →
      let o := d.axesTick
      let c := o.comm k
      o.get F.AX_CSTAT_STATE k = c.st.code ∧ o.flag F.AX_CSTAT_WEN k = c.wen ∧ o.get F.AX_CSTAT_MISSC k = c.missc % 16 ∧
      o.flag F.AX_CSTAT_RDIR k = decide (0 ≤ c.rate) ∧ o.get F.AX_NANG_ANG k = c.g / 65536 % 2 ^ 32 ∧
      o.reg (F.AX_NRATE.at_ k) = BitVec.ofInt 40 c.rate ∧ (o.axis k).sstatTick = o.reg (F.AX_SSTAT.at_ k)) ∧
    (let j := d.get F.GEY_FCNT % 8
     let may := fun k => d.primary k = true ∧ (∃ e, e < 8 ∧ d.engineOf k = some e ∧ d.flag F.ENG_CKPT_VALID e = true ∧
       d.get F.ENG_CKPT_FRAME e = (d.get F.GEY_FCNT + 2 ^ 24 - 1) % 2 ^ 24) ∧ d.bit F.ENG_PCTL_EXCL 0 k = false
     let shows := fun (f : Fld) (k : Nat) => (may k → d.patrolTick.get f = k) ∧ (¬may k → d.patrolTick.get f = 8)
     let none_ := fun f : Fld => d.patrolTick.get f = 8
     let on := d.flag F.ENG_PCTL_PATROL = true
     d.keepsRegs d.patrolTick [F.ENG_PSTAT.at_ 0, F.ENG_PCNT.at_ 0] ∧
     (¬on → none_ F.ENG_PSTAT_AX8 ∧ none_ F.ENG_PSTAT_AX9) ∧
     (on → d.freeRes 8 = true → shows F.ENG_PSTAT_AX8 j) ∧
     (on → d.freeRes 8 = false → none_ F.ENG_PSTAT_AX8) ∧
     (on → d.freeRes 9 = true → shows F.ENG_PSTAT_AX9 (if d.freeRes 8 then (j + 4) % 8 else j)) ∧
     (on → d.freeRes 9 = false → none_ F.ENG_PSTAT_AX9))

/-- R62 to R67, R304, R344: a slot action happens in its slot, once a frame, at its OFFSET, and nothing of it does otherwise.
MARK raises EV124. HEARTBEAT sends the frame counter, the period, the states and the standing stop requests, or is late while
a configuration occupies the link. JOURNAL executes the entries that were not accepted in this frame, 64 at most, and takes
them off the journal; a halted journal executes none, and an entry that sets a mode sets it on every axis it names. CANTX
makes the buffers READY that were requested before this core cycle, on the controllers it names, and their replies eligible.
(That the words of an entry go into a reservation of the journal engine, whose end the next entry awaits, is the model's
choice, log entry 31; so is the error that stands in a word of a copy until the word is written, log entry 87.) -/
def Obligations.SlotActions : Prop :=
  ∀ (s : State) (slot : Fin 32) (m14 m15 : CopyRead),
    let w := s.dev.reg (F.GEY_ASLOT.at_ slot)
    let off := (w.extractLsb' 0 16).toNat
    let act := (w.extractLsb' 16 4).toNat
    let mask := (w.extractLsb' 20 8).toNat
    let may := s.dev.awake = true ∧ s.dev.sys.sealed = true ∧ s.dev.clk.ticked = true ∧
      s.dev.gey.started.testBit slot = false ∧ s.dev.gey.late.testBit slot = false
    let a := s.dev.at_ off
    let started := fun d : Dev => d.gey.started.testBit slot = true ∧ d.gey.late.testBit slot = false ∧
      d.clk.now = max s.dev.clk.now (s.dev.clk.frameStart + off)
    let passes := fun d : Dev => started d ∧ d.vent = a.vent ∧ d.engs = a.engs ∧ d.jnl = s.dev.jnl ∧ d.con = a.con
    let due := (s.dev.jnl.entries.filter fun e => !e.fresh).take 64
    let clean := ∀ x ∈ a.con.bad, bankOf x < 14
    (∀ p ∈ [(Instr.prog slot, 1), (.ckpt slot, 2), (.journal slot m14 m15, 3), (.heartbeat slot, 4), (.cantx slot, 5),
        (.mark slot, 6)], ¬(may ∧ act = p.2) → exec p.1 s = .next s) ∧
    (may → act = 6 → Gives s (.mark slot) fun d => passes d ∧ d.can = s.dev.can ∧ d.link = s.dev.link ∧ d.ev 124 = true ∧
      a.keepsRegs d [F.EVT_STAT.at_ 3]) ∧
    (may → act = 4 → s.dev.link.cfg = none → Gives s (.heartbeat slot) fun d => passes d ∧ d.can = s.dev.can ∧
      d.regs = a.regs ∧ ∃ hb, d.link.hb = some hb ∧ hb.fcnt = (a.reg (F.GEY_FCNT.at_ 0)).toNat ∧ hb.period = a.len ∧
        hb.states.length = 8 ∧ d.link.await = some hb.states ∧
        ∀ k, k < 8 → hb.states.getD k .safe = a.cst k ∧ hb.stops.getD k none = uget s.dev.link.stopReq k) ∧
    (may → act = 4 → s.dev.link.cfg ≠ none → Gives s (.heartbeat slot) fun d =>
      d.gey.late.testBit slot = true ∧ d.gey.started = s.dev.gey.started ∧ d.link = s.dev.link ∧ d.ev 126 = true ∧
      d.get F.GEY_OVR_LATE = min (a.get F.GEY_OVR_LATE + 1) 65535 ∧ d.get F.GEY_OVR_LSLOT = slot.val ∧
      a.keepsRegs d [F.GEY_OVR.at_ 0, F.EVT_STAT.at_ 3]) ∧
    (may → act = 3 → due = [] ∨ s.dev.jnl.mirror = 3 → Gives s (.journal slot m14 m15) fun d =>
      passes d ∧ d.can = s.dev.can ∧ d.regs = a.regs ∧ d.link = s.dev.link) ∧
    (may → act = 3 → s.dev.jnl.mirror < 3 → m14 = .ok → m15 = .ok → clean → Gives s (.journal slot m14 m15) fun d =>
      d.gey.started.testBit slot = true ∧ d.gey.late.testBit slot = false ∧ a.clk.now ≤ d.clk.now ∧ d.jnl.mirror = s.dev.jnl.mirror ∧
      d.jnl.entries = s.dev.jnl.entries.filter fun e => !(due.map Entry.slot).contains e.slot) ∧
    (∀ e, may → act = 3 → s.dev.jnl.mirror < 3 → m14 = .ok → m15 = .ok → clean → due = [e] → e.code = 3 →
      a.resvOf 10 = none → s.dev.jnl.unwritten = [] →
      (∀ k, k < 8 → e.mask.testBit k = true → s.dev.primary k = true ∧
        (a.judge .journal (F.AX_MODE.at_ k) (BitVec.ofNat 40 (e.arg0.toNat % 4))).isSome = true) →
      Gives s (.journal slot m14 m15) fun d => started d ∧ d.vent = a.vent ∧ d.engs = a.engs ∧ d.link = s.dev.link ∧
        ∀ k, k < 8 → d.reg (F.AX_MODE.at_ k) =
          if e.mask.testBit k then BitVec.ofNat 40 (e.arg0.toNat % 4) else a.reg (F.AX_MODE.at_ k)) ∧
    (may → act = 5 → (∀ c, c < 4 → mask.testBit c = true → s.dev.flag F.CAN_CTL_RPLBUF c = false) →
      Gives s (.cantx slot) fun d => passes d ∧ d.link = s.dev.link ∧
        a.keepsRegs d [F.CAN_TXSTAT.at_ 0, F.CAN_TXSTAT.at_ 1, F.CAN_TXSTAT.at_ 2, F.CAN_TXSTAT.at_ 3] ∧
        ∀ c, c < 4 →
          (∀ n, n < 3 → d.get (txAll n) c =
            if mask.testBit c = true ∧ a.get (txSt n) c = 1 ∧ uget (s.dev.ctl c).reqAt n ≠ a.clk.now then 2
            else a.get (txAll n) c) ∧
          (d.ctl c).replies = (s.dev.ctl c).replies.map (fun r => { r with due := r.due || mask.testBit c }))

/-- R22, R64, R67, R179, R195, R196, R323: a PROG slot that names one axis takes the frame copy of its registers and starts a
run of its engine at address 0 with every register cleared; a CKPT slot begins the checkpoint burst of a completed run into
the half that LAST does not name. Each word is a grant of M15: with the first the half loses VALID, and with the header, written
last, LAST names the half. Either is late while its engine is busy; a CKPT slot whose burst is under way is not. The data words
are those that stand when the burst begins, and a word reads as written from its grant on (log entry 48, the model's choice).
(Stated of a mask with one axis that no reserve shadows, and of a burst that meets no other request.) -/
def Obligations.RunStartAndCheckpoint : Prop :=
  (∀ (s : State) (slot : Fin 32) (k e : Nat),
    let w := s.dev.reg (F.GEY_ASLOT.at_ slot)
    let off := (w.extractLsb' 0 16).toNat
    let act := (w.extractLsb' 16 4).toNat
    let t := s.dev.clk.frameStart + off
    let a := s.dev.at_ off
    let may := s.dev.awake = true ∧ s.dev.sys.sealed = true ∧ s.dev.clk.ticked = true ∧
      s.dev.gey.started.testBit slot = false ∧ s.dev.gey.late.testBit slot = false
    let late := fun d : Dev => d.gey.late.testBit slot = true ∧ d.ev 126 = true ∧ d.engs = a.engs ∧
      d.get F.GEY_OVR_LSLOT = slot.val ∧ a.keepsRegs d [F.GEY_OVR.at_ 0, F.EVT_STAT.at_ 3]
    k < 8 → (w.extractLsb' 20 8).toNat = 2 ^ k → s.dev.engineOf k = some e → e < 10 → may →
    (act = 1 → s.dev.gey.ran.testBit k = false → (∀ x ∈ s.dev.patrol.takeover, x.1 ≠ e) →
      s.dev.shadows 8 ≠ k → s.dev.shadows 9 ≠ k →
      ((s.dev.run e).live = true → Gives s (.prog slot) late) ∧
      ((s.dev.run e).live = false → Gives s (.prog slot) fun d =>
        let r := d.run e
        d.gey.started.testBit slot = true ∧ d.gey.ran.testBit k = true ∧ d.clk.now = max s.dev.clk.now t ∧
        r.kind = .primary ∧ r.live = true ∧ r.axis.val = k ∧ r.prog = (s.dev.topo k).prog ∧ r.startAt = t ∧
        r.frame = s.dev.get F.GEY_FCNT ∧ r.cyc = s.dev.clk.now - t ∧ r.pc = 0 ∧ r.w = [] ∧ r.p = [] ∧ r.lc = 0 ∧ r.ports = [] ∧
        (∀ n, n < 16 → r.flag n = (n == fOvr && (s.dev.axis k).ovr || n == fFr && (s.dev.axis k).fr)) ∧
        (∀ j, j < 32 → uget (d.axis k).copy (F.AX_PARAM.at_ k + j) = s.dev.reg (F.AX_PARAM.at_ k + j)) ∧
        (d.axis k).copyCeil = s.dev.reg (F.AX_CEIL.at_ k) ∧ (d.axis k).lastRun = some (s.dev.get F.GEY_FCNT) ∧
        (d.axis k).ovr = false ∧ (d.axis k).fr = false ∧ d.get F.ENG_STAT_STATE e = 1 ∧ d.flag F.ENG_STAT_IMM e = false ∧
        (d.eng e).dmem = (s.dev.eng e).dmem ∧ (d.eng e).ckptDue = false ∧ (∀ j, j ≠ e → d.eng j = a.eng j) ∧
        a.keepsRegs d [F.ENG_STAT.at_ e])) ∧
    (act = 2 →
      let u := a.eng e
      let going := u.burst ≠ none ∧ u.ckptDue = false
      let waits := a.ckptWaits e k = true
      (¬going → waits → Gives s (.ckpt slot) late) ∧
      (going ∨ ¬waits ∧ u.ckptDue = false → Gives s (.ckpt slot) fun d =>
        d.gey.started.testBit slot = true ∧ d.regs = a.regs ∧ d.con = a.con ∧ d.engs = a.engs) ∧
      (¬waits → u.ckptDue = true → Gives s (.ckpt slot) fun d =>
        let h := 1 - a.get F.ENG_CKPT_LAST e
        let n := (s.dev.progOf k).ckpt
        let f := (s.dev.run e).frame
        d.gey.started.testBit slot = true ∧ d.regs = a.regs ∧
        d.eng e = { u with ckptDue := false, burst := some { addr := ckptAt k h, words := tabulate n (a.dmem e), header := BitVec.ofNat 40 (f % 2 ^ 32 + n * 2 ^ 32 + 2 ^ 39), half := h, frame := f, since := a.clk.now } } ∧
        (∀ j, j ≠ e → d.eng j = a.eng j) ∧ d.con.mem = a.con.mem ∧
        (uget a.con.parked 15 ≠ some e → uget d.con.parked 15 = none)))) ∧
  (∀ (d : Dev) (e n : Nat) (b : Burst),
    e < 10 → (d.eng e).burst = some b → (∀ j, j ≠ e → (d.eng j).burst = none) → d.con.resv = [] → (∀ q, d.queue q = []) →
    b.words.length ≤ 64 → b.next ≤ b.words.length → b.half < 2 →
    let o := d.advance n
    let start := max (d.conBusy 15) b.since
    let left := b.words.length + 1 - b.next
    let now := d.clk.now + n
    (start + left ≤ now →
      (o.eng e).burst = none ∧ o.get F.ENG_CKPT_LAST e = b.half ∧ o.flag F.ENG_CKPT_VALID e = true ∧
      o.get F.ENG_CKPT_FRAME e = b.frame % 2 ^ F.ENG_CKPT_FRAME.width ∧ d.keepsRegs o [F.ENG_CKPT.at_ e] ∧
      (∀ j, b.next ≤ j → j < b.words.length → o.cal (b.addr + j) = b.words.getD j 0) ∧ o.cal (b.addr + 0x40) = b.header ∧
      ∀ a, a < b.addr + b.next ∨ b.addr + b.words.length ≤ a → a ≠ b.addr + 0x40 → o.cal a = d.cal a) ∧
    (start < now → now < start + left →
      let m := now - start
      (o.eng e).burst = some { b with next := b.next + m, since := now } ∧ o.regs = d.regs ∧
      (∀ j, b.next ≤ j → j < b.next + m → o.cal (b.addr + j) = b.words.getD j 0) ∧
      (b.next = 0 → (o.cal (b.addr + 0x40)).getLsbD 39 = false) ∧
      ∀ a, a < b.addr + b.next ∨ b.addr + b.next + m ≤ a → a ≠ b.addr + 0x40 → o.cal a = d.cal a) ∧
    (now ≤ start → (o.eng e).burst = some b ∧ o.regs = d.regs ∧ ∀ a, o.cal a = d.cal a))

/-- R65, R69 to R74: GO of a commit starts its validation, which is PENDING, or DEFERRED from cycle LEN − 400 on; a GO while
one stands is refused. The validation accepts a table that keeps the rules of R65, and refuses any other with its breach;
CANCEL withdraws an accepted one and has no effect otherwise. SYNCIN edges give the master's tick while the device follows,
and lock is lost 1.25 periods after the last of them; SYNCOUT is high from 5 ns after a tick on, for 100 ns. That a GO before
the seal has no effect and that one before the first tick is deferred are the model's choices (log entry 51). -/
def Obligations.CommitAndPhase : Prop :=
  ∀ (s : State) (t : Nat),
    let live := s.dev.hostUp = true ∧ s.dev.sys.sealed = true
    let rules := TableRules (s.dev.get F.GEY_PERIOD_PERIOD - if s.dev.flag F.GEY_SYNC_FOLLOW then s.dev.get F.GEY_SYNC_SLEW else 0)
      (fun k => s.dev.primary k = true) (fun k => (s.dev.progOf k).wcet) (fun i => s.dev.reg (F.GEY_SLOT.at_ i))
    let a := s.dev.at_ t
    (¬live → exec (.geyCommitGo t) s = .next s) ∧
    (live → s.dev.clk.now ≤ s.dev.clk.frameStart + t → s.dev.gey.commit = none → Gives s (.geyCommitGo t) fun d =>
      let late := decide (s.dev.len ≤ t + 400)
      d.gey = { s.dev.gey with commit := some { validated := false, deferred := late, ticksLeft := if late then 2 else 1 } } ∧
      d.regs = a.regs ∧ d.clk.now = s.dev.clk.frameStart + t) ∧
    (live → s.dev.gey.commit ≠ none → Gives s (.geyCommitGo t) fun d => d.gey = s.dev.gey ∧
      d.get F.HST_STAT_LSTAT = 1 ∧ d.get F.HST_STAT_LADDR = 0x104 ∧ a.keepsRegs d [F.HST_STAT.at_ 0]) ∧
    (∀ c, s.dev.gey.commit = some c → c.validated = false → rules →
      Gives s .commitValidationDone fun d => s.dev.keepsRegs d [F.GEY_CSTAT.at_ 0] ∧
        d.gey = { s.dev.gey with commit := some { c with validated := true } } ∧
        d.get F.GEY_CSTAT_STATE = (if c.deferred then 2 else 1) ∧ d.get F.GEY_CSTAT_REASON = 0 ∧
        d.get F.GEY_CSTAT_SLOT = 0 ∧ d.flag F.GEY_CSTAT_MISS = false) ∧
    (∀ c, s.dev.gey.commit = some c → c.validated = false → ¬rules →
      Gives s .commitValidationDone fun d => s.dev.keepsRegs d [F.GEY_CSTAT.at_ 0, F.EVT_STAT.at_ 3] ∧
        d.gey = { s.dev.gey with commit := none } ∧ d.get F.GEY_CSTAT_STATE = 4 ∧ d.ev 125 = true ∧
        ∃ b, tableBreach s.dev.slotEnv (tabulate 32 fun i => s.dev.reg (F.GEY_SLOT.at_ i)) = some b ∧
          1 ≤ b.reason ∧ b.reason ≤ 6 ∧ d.get F.GEY_CSTAT_REASON = b.reason ∧ d.get F.GEY_CSTAT_SLOT = b.slot ∧
          d.flag F.GEY_CSTAT_MISS = b.miss) ∧
    (s.dev.gey.commit = none → exec .commitValidationDone s = .next s ∧ exec .geyCommitCancel s = .next s) ∧
    (∀ c, s.dev.gey.commit = some c → (c.validated = true → exec .commitValidationDone s = .next s) ∧
      (c.validated = false → exec .geyCommitCancel s = .next s) ∧
      (c.validated = true → Gives s .geyCommitCancel fun d => s.dev.keepsRegs d [F.GEY_CSTAT.at_ 0, F.EVT_STAT.at_ 3] ∧
        d.gey = { s.dev.gey with commit := none } ∧ d.get F.GEY_CSTAT_STATE = 5 ∧ d.ev 125 = true)) ∧
    (let follows := s.dev.awake = true ∧ s.dev.sys.sealed = true ∧ s.dev.flag F.GEY_SYNC_FOLLOW = true
     let now := max s.dev.clk.now (s.dev.clk.frameStart + t)
     (Gives s (.syncinEdge t) fun d => d.regs = a.regs ∧ d.clk.now = now ∧
       (follows → d.gey = { s.dev.gey with master := some now }) ∧ (¬follows → d.gey = s.dev.gey)) ∧
     (s.dev.gey.master = none ∨ ¬follows → exec .syncinTimeout s = .next s) ∧
     (∀ edge, s.dev.gey.master = some edge → follows → Gives s .syncinTimeout fun d =>
      let x := s.dev.toCycle (edge + (5 * s.dev.get F.GEY_PERIOD_PERIOD + 3) / 4)
      d.clk = x.clk ∧
      d.gey = { s.dev.gey with master := none, inCnt := 0, outCnt := 0 } ∧ d.flag F.GEY_SSTAT_LOCKED = false ∧
      (s.dev.flag F.GEY_SSTAT_LOCKED = true → d.flag F.GEY_SSTAT_LOST = true ∧ d.ev 126 = true) ∧
      x.keepsRegs d [F.GEY_SSTAT.at_ 0, F.EVT_STAT.at_ 3])) ∧
    (s.dev.gey.syncAt = none → exec .syncoutEnd s = .next s ∧ s.dev.syncoutHigh = false) ∧
    (∀ tick, s.dev.gey.syncAt = some tick →
      (s.dev.syncoutHigh = true ↔ tick + 2 ≤ s.dev.clk.now ∧ s.dev.clk.now < tick + 42) ∧
      Gives s .syncoutEnd fun d =>
        let x := s.dev.toCycle (tick + 42)
        d = { x with gey := { x.gey with syncAt := none } })

/-! ### ADC banks and position feedback (chapters 6 to 8) -/

/-- R18, R123, R126, R127, R134, R141, R151, R154, R249: a sample that is due is corrected, clamped, added to the
accumulator that the entry names and compared with its thresholds; the sequence moves on to the next entry. A crossing in
the core cycle of a write that clears its latches leaves VAL and FIRST as they stood (R158), and one on a pair that no axis
owns leaves FIRST (log entry 34, the model's choice). One that is not due does nothing. (The estimates and the code r′ behind the
correction are free values, log entries 23 and 24.) -/
def Obligations.AdcSample : Prop :=
  ∀ (s : State) (bank entry : Fin 16) (raw : BitVec 14) (t : Nat),
    let c : Instr := .adcSample bank entry raw t
    let b := bank.val
    let e := entry.val
    let a := s.dev.at_ t
    let opened : Int := (a.clk.now : Int) - 28 - (a.entry F.ADC_SEQ_SAMP b e : Nat)
    let u := s.dev.bank b
    let ch := s.dev.entry F.ADC_SEQ_CH b e
    let gain := s.dev.entry F.ADC_SEQ_GAIN b e
    let x := corrected (s.dev.corOf ch) gain
      (Config.corrected4 b gain (s.dev.reg ((F.ADC_SLC.nth (u.slice % 4)).at_ b)) raw.toInt)
    let y := max (-32768) (min 32767 x)
    let n := 16 * s.dev.seqBank b + s.dev.entry F.ADC_SEQ_DEST b e
    let hi := s.dev.flag F.ACC_TRIP_HIEN n = true ∧ s.dev.getI F.ACC_TRIP_THI n < y
    let lo := s.dev.flag F.ACC_TRIP_LOEN n = true ∧ y < s.dev.getI F.ACC_TRIP_TLO n
    let held := s.dev.flag F.ACC_TSTAT_TRIPH n = true ∨ s.dev.flag F.ACC_TSTAT_TRIPL n = true
    (a.sampleDue b e opened = false → Gives s c fun d => d = a) ∧
    (a.sampleDue b e opened = true → Gives s c fun d =>
      d.clk = a.clk ∧ d.vent = a.vent ∧ d.engs = a.engs ∧
      d.acc n = { s.dev.acc n with sum := (s.dev.acc n).sum + y, cnt := (s.dev.acc n).cnt + 1, min := min (s.dev.acc n).min y, max := max (s.dev.acc n).max y, tripAt := (d.acc n).tripAt, out := (d.acc n).out } ∧
      (∀ m, m ≠ n → d.acc m = s.dev.acc m) ∧
      (d.bank b).pos = (e + 1) % s.dev.seqLen b ∧ (d.bank b).slice = (u.slice + 1) % 4 ∧
      (∀ m, m ≠ b → d.bank m = s.dev.bank m) ∧
      (raw = -8192#14 ∨ raw = 8191#14 → d.flag F.ADC_STAT_OVR b = true ∧ d.get F.ADC_STAT_OVRENT b = e ∧
        d.get F.ADC_STAT_OVRCNT b = min (s.dev.get F.ADC_STAT_OVRCNT b + 1) 65535 ∧
        (s.dev.flag F.ADC_STAT_OVR b = false → d.ev 81 = true)) ∧
      (raw ≠ -8192#14 → raw ≠ 8191#14 → d.flag F.ADC_STAT_OVR b = s.dev.flag F.ADC_STAT_OVR b ∧
        d.get F.ADC_STAT_OVRCNT b = s.dev.get F.ADC_STAT_OVRCNT b) ∧
      (x < -32768 ∨ 32767 < x → d.flag F.ADC_STAT_CSAT b = true ∧ d.get F.ADC_STAT_CSATENT b = e ∧
        (s.dev.flag F.ADC_STAT_CSAT b = false → d.ev 82 = true)) ∧
      (-32768 ≤ x → x ≤ 32767 → d.flag F.ADC_STAT_CSAT b = s.dev.flag F.ADC_STAT_CSAT b) ∧
      (hi → d.flag F.ACC_TSTAT_TRIPH n = true ∧ (s.dev.flag F.ACC_TSTAT_TRIPH n = false → d.ev (84 + n / 32) = true)) ∧
      (lo → d.flag F.ACC_TSTAT_TRIPL n = true ∧ (s.dev.flag F.ACC_TSTAT_TRIPL n = false → d.ev (84 + n / 32) = true)) ∧
      (¬hi → d.flag F.ACC_TSTAT_TRIPH n = s.dev.flag F.ACC_TSTAT_TRIPH n) ∧
      (¬lo → d.flag F.ACC_TSTAT_TRIPL n = s.dev.flag F.ACC_TSTAT_TRIPL n) ∧
      (hi ∨ lo → ¬held → (∀ f v, (s.dev.acc n).cleared ≠ some (a.clk.now, f, v)) → d.getI F.ACC_TSTAT_VAL n = y) ∧
      (∀ f v, (s.dev.acc n).cleared = some (a.clk.now, f, v) → f < 2 → v < 65536 → hi ∨ lo → ¬held →
        d.get F.ACC_TSTAT_FIRST n = f ∧ d.get F.ACC_TSTAT_VAL n = v) ∧
      (s.dev.axisOfPair (n / 32) = none → (s.dev.acc n).cleared = none →
        d.get F.ACC_TSTAT_FIRST n = s.dev.get F.ACC_TSTAT_FIRST n) ∧
      (¬hi → ¬lo → d.flag F.ACC_TSTAT_OUT n = false ∧ ∀ m, m ≠ n → d.reg (F.ACC_TSTAT.at_ m) = s.dev.reg (F.ACC_TSTAT.at_ m)) ∧
      (hi ∨ lo → d.flag F.ACC_TSTAT_OUT n = true) ∧
      (∀ r, (∀ i, i < 4 → r ≠ (F.ADC_SLC.nth i).at_ b) → (∀ m, r ≠ F.ACC_TSTAT.at_ m) →
        (∀ k, k < 8 → r ≠ F.AX_CCNT.at_ k ∧ r ≠ F.AX_SSTAT.at_ k) → r ≠ F.ADC_STAT.at_ b → r ≠ F.EVT_STAT.at_ 2 →
        d.reg r = a.reg r))

/-- R135 to R137, R166, R165: the rise of a pair's reference releases its comparators and restarts the banks that had
been running; its fall after the seal stops the pair, holds every comparator asserted, latches REFLOST with EV80 and
invalidates the feedback unit that its axis reads; a reference that is late latches the same. R138, R140, R142, R143:
FREEZE holds the estimates and shows FROZEN; RESTART loads the vendor trims (log entry 25) and clears CONV, with EV83
where it stood; a pull is refused while its axis is not SAFE, or under a code that the register does not have, and written
otherwise. That SAFE counts on both dies, and that the warden's arming refuses a pull, are the model's choices (log entry 40).
(A pair without an ADC record has no reference.) -/
def Obligations.ReferencesAndAdcControl : Prop :=
  (∀ (s : State) (pair : Fin 8),
     let p := pair.val
     let on := s.dev.awake = true ∧ (s.dev.sys.sealed = true ∨ s.dev.img.sealing = true) ∧
       s.dev.img.cur.pairs.testBit p = true
     let ok := s.dev.flag F.ADC_STAT_REFOK (2 * p)
     let mine : Nat → Prop := fun b => b = 2 * p ∨ b = 2 * p + 1
     (¬on ∨ ok = true → exec (.refOkRise pair) s = .next s ∧ exec (.refLate pair) s = .next s) ∧
     (on → ok = false → Gives s (.refOkRise pair) fun d =>
       (∀ b, mine b → d.flag F.ADC_STAT_REFOK b = true ∧
         ((s.dev.bank b).started = true → 0 < s.dev.seqLen b →
           d.flag F.ADC_STAT_RUN b = true ∧ (d.bank b).pos = 0 ∧ (d.bank b).slice = 0) ∧
         ((s.dev.bank b).started = false → d.bank b = s.dev.bank b ∧ d.flag F.ADC_STAT_RUN b = s.dev.flag F.ADC_STAT_RUN b)) ∧
       (∀ i, i < 32 → d.flag F.ACC_TSTAT_OUT (32 * p + i) = (s.dev.acc (32 * p + i)).out ∧
         d.flag F.ACC_TSTAT_TRIPH (32 * p + i) = s.dev.flag F.ACC_TSTAT_TRIPH (32 * p + i)) ∧
       d = { s.dev with regs := d.regs, banks := d.banks } ∧
       (∀ x, (∀ b, mine b → x ≠ F.ADC_STAT.at_ b) → (∀ i, i < 32 → x ≠ F.ACC_TSTAT.at_ (32 * p + i)) → d.reg x = s.dev.reg x)) ∧
     (on → ok = false →
       (s.dev.get F.ADC_CTL_REFSEL (2 * p) = 0 → (s.dev.bank (2 * p)).started = false → Gives s (.refLate pair) fun d =>
         d.ev 80 = true ∧ (∀ b, mine b → d.flag F.ADC_STAT_REFLOST b = true) ∧
         s.dev.regsOnly d [F.ADC_STAT.at_ (2 * p), F.ADC_STAT.at_ (2 * p + 1), F.EVT_STAT.at_ 2]) ∧
       (s.dev.get F.ADC_CTL_REFSEL (2 * p) ≠ 0 ∨ (s.dev.bank (2 * p)).started = true → exec (.refLate pair) s = .next s)) ∧
     (¬on ∨ ok = false → exec (.refOkFall pair) s = .next s) ∧
     (on → ok = true → s.dev.sys.sealed = false → Gives s (.refOkFall pair) fun d =>
       s.dev.regsOnly d [F.ADC_STAT.at_ (2 * p), F.ADC_STAT.at_ (2 * p + 1)] ∧
       ∀ b, mine b → d.flag F.ADC_STAT_REFOK b = false ∧ d.flag F.ADC_STAT_RUN b = s.dev.flag F.ADC_STAT_RUN b) ∧
     (let stops := fun d : Dev => d.ev 80 = true ∧
        (∀ b, mine b → d.flag F.ADC_STAT_REFOK b = false ∧ d.flag F.ADC_STAT_RUN b = false ∧ d.flag F.ADC_STAT_REFLOST b = true) ∧
        (∀ i, i < 32 → d.flag F.ACC_TSTAT_OUT (32 * p + i) = true ∧
          d.flag F.ACC_TSTAT_TRIPH (32 * p + i) = s.dev.flag F.ACC_TSTAT_TRIPH (32 * p + i)) ∧
        d.accs = s.dev.accs ∧ d.engs = s.dev.engs
      on → ok = true → s.dev.sys.sealed = true →
        (s.dev.axisOfPair p = none → Gives s (.refOkFall pair) fun d => stops d ∧ d = { s.dev with regs := d.regs }) ∧
        (∀ k u, s.dev.axisOfPair p = some k → (s.dev.topo k).fbk = u → u < 8 → s.dev.axisOfFbk u = some k →
          (s.dev.fbk u).pipe = [] → (s.dev.comm k).ramp = none → s.dev.flag F.FBK_CFG_LOSSACT u = false →
          Gives s (.refOkFall pair) fun d => stops d ∧ d.vent = s.dev.vent ∧ (d.fbk u).valid = false ∧ (d.fbk u).half = none ∧
            (∀ j, j ≠ u → d.fbk j = s.dev.fbk j) ∧ d.flag F.FBK_STAT_SIGLOSS u = true ∧
            d.get F.FBK_CNT_LOSSCNT u = min (s.dev.get F.FBK_CNT_LOSSCNT u + 1) 65535 ∧
            (s.dev.flag F.FBK_STAT_SIGLOSS u = false → d.ev (8 * k + 2) = true)) ∧
        (∀ k u, s.dev.axisOfPair p = some k → (s.dev.topo k).fbk = u → u < 8 → s.dev.axisOfFbk u = some k →
          (s.dev.fbk u).pipe = [] → (s.dev.fbk u).valid = true → (s.dev.comm k).ramp = none → s.dev.partner k = none →
          s.dev.flag F.FBK_CFG_LOSSACT u = true → s.dev.cst k = .run → s.dev.get F.LEG_CFG_POLICY (3 * k) ≠ 3 →
          Gives s (.refOkFall pair) fun d => stops d ∧ d.cst k = .safe ∧ uget d.link.stopReq k = some (s.dev.stored k)))) ∧
  (∀ (s : State) (bank : Fin 16) (ch : Fin 96) (on : Bool) (w : Word),
     let b := bank.val
     let slc := fun i => (F.ADC_SLC.nth i).at_ b
     let pull := (w.extractLsb' 0 2).toNat
     let busy := ∃ k, k < 8 ∧ ch.val / 10 = k ∧ (s.dev.cst k ≠ .safe ∨ s.dev.vst k ≠ .safe ∨ s.dev.arming k = true)
     let bad := pull ≠ 0 ∧ (busy ∨ pull = 3 ∨ (w.extractLsb' 2 2).toNat = 3)
     (s.dev.hostUp = false → ∀ c ∈ [Instr.adcCalFreeze bank on, .adcCalRestart bank, .corDiagWrite ch w], exec c s = .next s) ∧
     (s.dev.hostUp = true → Gives s (.adcCalFreeze bank on) fun d => s.dev.regsOnly d [F.ADC_CAL.at_ b, F.ADC_STAT.at_ b] ∧
       d.flag F.ADC_CAL_FREEZE b = on ∧ d.flag F.ADC_STAT_FROZEN b = on) ∧
     (s.dev.hostUp = true → Gives s (.adcCalRestart bank) fun d =>
       d = { s.dev with regs := d.regs, banks := d.banks } ∧ (∀ m, m ≠ b → d.bank m = s.dev.bank m) ∧
       d.bank b = { s.dev.bank b with still := 0 } ∧
       s.dev.keepsRegs d [slc 0, slc 1, slc 2, slc 3, F.ADC_STAT.at_ b, F.EVT_STAT.at_ 2] ∧
       (∀ i, i < 4 → d.reg (slc i) = Config.vendorTrim (slc i) &&& 0xFFFFFFFFF#40) ∧ d.flag F.ADC_STAT_CONV b = false ∧
       (s.dev.flag F.ADC_STAT_CONV b = true → d.ev 83 = true) ∧
       (s.dev.flag F.ADC_STAT_CONV b = false → d.reg (F.EVT_STAT.at_ 2) = s.dev.reg (F.EVT_STAT.at_ 2))) ∧
     (s.dev.hostUp = true → ¬bad → Gives s (.corDiagWrite ch w) fun d =>
       s.dev.regsOnly d [F.COR_DIAG.at_ ch] ∧ d.reg (F.COR_DIAG.at_ ch) = w &&& 0xF#40) ∧
     (s.dev.hostUp = true → bad → Gives s (.corDiagWrite ch w) fun d =>
       s.dev.regsOnly d [F.HST_STAT.at_ 0] ∧ d.get F.HST_STAT_LSTAT = 1 ∧ d.get F.HST_STAT_LADDR = F.COR_DIAG.at_ ch))

/-- R160 to R165: a sample pair that leaves the CORDIC gives the angle and the magnitude; the quadrant it has moved to
moves LINES and the position by one line at most; a step of more than an eighth of a line latches OVSPD, a magnitude
outside the limits LOSSN times in a row SIGLOSS, and either ends the validity. The first pair after enable, and the first
after a REARM, establish the position and the validity; once the reference has failed, only a REARM makes the position valid
again (R166). A validity that falls in the tick's own core cycle shows in what the
tick has latched (R173). -/
def Obligations.SamplePair : Prop :=
  ∀ (s : State) (unit : Fin 8) (tol : Fin 3) (t : Nat),
    let c : Instr := .samplePairComplete unit tol t
    let u := unit.val
    let a := s.dev.at_ t
    let x := s.dev.fbk u
    (s.dev.awake = false ∨ x.pipe = [] → Gives s c fun d => d = a) ∧
    (∀ sn cs at_ rest, s.dev.awake = true → x.pipe = (sn, cs, at_) :: rest → sn ≠ 0 ∨ cs ≠ 0 →
      (rest ≠ [] ∨ x.refLoss = false) →
      (∀ k, s.dev.axisOfFbk u = some k → (s.dev.comm k).ramp = none) → s.dev.flag F.FBK_CFG_LOSSACT u = false →
      let sn' := if s.dev.flag F.FBK_CFG_INV u then -sn else sn
      let phi := (phiFloor sn' cs + 4095 + tol.val) % 4096
      let m := magnitude sn' cs
      let q := x.phi / 1024
      let q' := phi / 1024
      let fresh := x.begun = false ∨ x.rearm = true
      let sets := x.begun = false ∧ x.lost = false ∨ x.rearm = true
      let fast := ¬fresh ∧ 512 < (signed 12 ((phi + 4096 - x.phi) % 4096)).natAbs
      let out := m < s.dev.get F.FBK_AMON_AMIN u ∨ s.dev.get F.FBK_AMON_AMAX u < m
      let loss := out ∧ s.dev.get F.FBK_CFG_LOSSN u ≤ x.outRun + 1
      let lines := (s.dev.reg (F.FBK_LPOS.at_ u)).toNat / 4096
      Gives s c fun d =>
        let y := d.fbk u
        y.pipe = rest ∧ y.begun = true ∧ y.phi = phi ∧ y.lastAt = at_ ∧ y.mMin = min x.mMin m ∧ y.mMax = max x.mMax m ∧
        (y.valid = true ↔ (sets ∨ x.valid = true) ∧ ¬fast ∧ ¬loss) ∧ y.lost = x.lost ∧
        (¬out → y.outRun = 0) ∧ (out → ¬loss → y.outRun = x.outRun + 1) ∧ (d.flag F.FBK_STAT_AOUT u = true ↔ out) ∧
        (∀ j, j ≠ u → d.fbk j = s.dev.fbk j) ∧ d = { a with regs := d.regs, fbks := d.fbks } ∧
        a.keepsRegs d [F.FBK_LPOS.at_ u, F.FBK_STAT.at_ u, F.FBK_SPD.at_ u, F.FBK_CNT.at_ u, F.EVT_STAT.at_ 0, F.EVT_STAT.at_ 1] ∧
        y.rearm = false ∧
        (x.valid = true → y.valid = false → a.clk.ticked = true → a.clk.now = a.clk.frameStart →
          d.flag F.FBK_STAT_VALID u = false ∧ d.flag F.FBK_STAT_SPDV u = false ∧ d.reg (F.FBK_SPD.at_ u) = 0) ∧
        (y.valid = true ∨ a.clk.now ≠ a.clk.frameStart → d.reg (F.FBK_SPD.at_ u) = s.dev.reg (F.FBK_SPD.at_ u)) ∧
        (x.begun = false → d.reg (F.FBK_LPOS.at_ u) = BitVec.ofNat 40 phi) ∧
        (x.begun = true → x.rearm = true → d.reg (F.FBK_LPOS.at_ u) = BitVec.ofNat 40 (lines * 4096 + phi)) ∧
        (¬fresh →
          (q = 3 → q' = 0 → d.reg (F.FBK_LPOS.at_ u) = BitVec.ofNat 40 ((lines + 1) % 2 ^ 28 * 4096 + phi)) ∧
          (q = 0 → q' = 3 → d.reg (F.FBK_LPOS.at_ u) = BitVec.ofNat 40 ((lines + 2 ^ 28 - 1) % 2 ^ 28 * 4096 + phi)) ∧
          (¬(q = 3 ∧ q' = 0) → ¬(q = 0 ∧ q' = 3) → d.reg (F.FBK_LPOS.at_ u) = BitVec.ofNat 40 (lines * 4096 + phi)) ∧
          (q' = (q + 1) % 4 → y.dir = true ∧ y.edgeF = true) ∧ (q = (q' + 1) % 4 → y.dir = false ∧ y.edgeB = true)) ∧
        (fast → d.flag F.FBK_STAT_OVSPD u = true ∧
          d.get F.FBK_CNT_OVSCNT u = min (s.dev.get F.FBK_CNT_OVSCNT u + 1) 65535) ∧
        (loss → d.flag F.FBK_STAT_SIGLOSS u = true ∧
          d.get F.FBK_CNT_LOSSCNT u = min (s.dev.get F.FBK_CNT_LOSSCNT u + 1) 65535) ∧
        (∀ k, s.dev.axisOfFbk u = some k →
          (fast ∧ s.dev.flag F.FBK_STAT_OVSPD u = false ∨ loss ∧ s.dev.flag F.FBK_STAT_SIGLOSS u = false) →
          d.ev (8 * k + 2) = true)) ∧
    (s.dev.hostUp = true → s.dev.axisOfFbk u ≠ none → Gives s (.rearm unit) fun d =>
      d = { s.dev with fbks := d.fbks } ∧ d.fbk u = { x with rearm := true } ∧ ∀ j, j ≠ u → d.fbk j = s.dev.fbk j) ∧
    (s.dev.hostUp = false ∨ s.dev.axisOfFbk u = none → exec (.rearm unit) s = .next s)

/-! ### Start sequencer and commutation (chapters 11 and 12) -/

/-- R251, R253, R255, R256, R259 to R261: the catch window ends with a measurement and goes on as the catch result says;
a brake cycle floats every leg after 19 ms and is evaluated after 20 ms; a retry delay ends in a new catch window. Before
its condition holds, none of these does anything. (A measured rate beyond the 40 bits of RATE is not stated, log entry 79.) -/
def Obligations.CatchAndBrake : Prop :=
  ∀ (s : State) (axis : Fin 8),
    let k := axis.val
    let c := s.dev.comm k
    let now := s.dev.clk.frameStart
    let ends := c.st = .catch_ ∧ c.wait = false ∧ (c.since + s.dev.live F.AX_CATCH_TCATCH k * 400000 ≤ now ∨ 7 ≤ c.run.length)
    let floats := c.st = .brake ∧ c.short = true ∧ c.cycleAt + 7600000 < now + s.dev.len
    let judged := c.st = .brake ∧ c.allFloat = true ∧ c.cycleAt + 8000000 ≤ now
    let retries := c.st = .catch_ ∧ c.wait = true ∧ c.since + s.dev.live F.AX_SCFG_RDLY k * 4000000 ≤ now
    let m := c.measure now
    let withDir := (m.back = true ↔ s.dev.live F.AX_SCFG_DIR k = 1)
    let res := fun (d : Dev) (n : Nat) => d.get F.AX_SSTAT_CRES k = n
    let loads := fun (d : Dev) (rate : Int) => -(2 ^ 39) ≤ rate → rate < 2 ^ 39 → (d.comm k).rate = rate
    let starts := fun (d : Dev) (g : Nat) (rate : Int) =>
      (d.comm k).st = .start ∧ (d.comm k).g = g ∧ loads d rate ∧ (d.comm k).wen = true ∧
      (d.comm k).allFloat = false ∧ (d.comm k).short = false ∧ d.get F.AX_SSTAT_CONSV k = 0 ∧ d.get F.AX_CSTAT_STATE k = 2
    let brakes := fun d : Dev => (d.comm k).st = .brake ∧ (d.comm k).short = true ∧ (d.comm k).allFloat = false ∧
      (d.comm k).cycleAt = now ∧ d.get F.AX_CSTAT_STATE k = 5
    let catches := fun d : Dev => (d.comm k).st = .catch_ ∧ (d.comm k).since = now ∧ (d.comm k).allFloat = true ∧
      (d.comm k).run = [] ∧ (d.comm k).win = none ∧ d.get F.AX_CSTAT_STATE k = 1
    let others := fun d : Dev => d.clk = s.dev.clk ∧ d.engs = s.dev.engs ∧ (∀ j, j < 8 → d.cst j = s.dev.cst j) ∧
      ∀ j, j ≠ k → (d.comm j).st = (s.dev.comm j).st ∧ (d.comm j).g = (s.dev.comm j).g ∧ (d.comm j).rate = (s.dev.comm j).rate
    s.dev.partner k ≠ some 8 →
    (¬ends → exec (.catchWindowEnd axis) s = .next s) ∧ (¬floats → exec (.brakeFloatStart axis) s = .next s) ∧
    (¬judged → exec (.brakeEvaluation axis) s = .next s) ∧ (¬retries → exec (.retryDelayEnd axis) s = .next s) ∧
    (ends → Gives s (.catchWindowEnd axis) fun d => others d ∧
      d.get F.AX_CAMP_AMPC k = c.amplitude now % 2 ^ F.AX_CAMP_AMPC.width ∧
      d.flag F.AX_CMEAS_VALID k = m.valid ∧ d.flag F.AX_CMEAS_BACK k = m.back ∧ d.get F.AX_CMEAS_NX k = m.n % 8 ∧
      (m.spd < 2 ^ 24 → d.get F.AX_CMEAS_SPD k = m.spd) ∧ (d.axis k).sstatTick = d.reg (F.AX_SSTAT.at_ k) ∧
      (m.valid = false → res d 1 ∧ starts d 0 0) ∧
      (m.valid = true → withDir → s.dev.live F.AX_SCFG_HORATE k ≤ m.spd → res d 2 ∧
        (d.comm k).st = .track ∧ (d.comm k).g = m.theta * 65536 ∧ loads d m.rate ∧ (d.comm k).wen = true ∧
        (d.comm k).recov = some 0 ∧ (d.comm k).allFloat = false ∧ d.flag F.AX_SSTAT_SYNC k = true ∧
        d.reg (F.AX_CEIL.at_ k) = 0 ∧ d.get F.AX_CSTAT_STATE k = 3 ∧ d.ev (8 * k + 5) = true) ∧
      (m.valid = true → withDir → m.spd < s.dev.live F.AX_SCFG_HORATE k → res d 3 ∧ starts d (m.theta * 65536) m.rate) ∧
      (m.valid = true → ¬withDir → m.spd ≤ s.dev.live F.AX_CATCH_BRKMAX k → res d 4 ∧ starts d 0 0) ∧
      (m.valid = true → ¬withDir → s.dev.live F.AX_CATCH_BRKMAX k < m.spd → res d 5 ∧ brakes d ∧ (d.comm k).since = now)) ∧
    (floats → Gives s (.brakeFloatStart axis) fun d => d.clk.now = max s.dev.clk.now (c.cycleAt + 7600000) ∧
      d.clk.frameStart = now ∧ (d.comm k).st = .brake ∧ (d.comm k).allFloat = true ∧ (d.comm k).short = false ∧
      (d.comm k).run = [] ∧ (d.comm k).dets = [] ∧ (d.comm k).amps = [] ∧ ∀ j, j < 8 → d.cst j = s.dev.cst j) ∧
    (judged → Gives s (.brakeEvaluation axis) fun d => others d ∧
      d.get F.AX_CAMP_AMP k = c.amplitude now % 2 ^ F.AX_CAMP_AMP.width ∧
      (let ampc := s.dev.get F.AX_CAMP_AMPC k
       let spdb := c.spdC * c.amplitude now / ampc
       (starts d 0 0 ∨ brakes d) ∧
       (ampc ≠ 0 → (spdb < 2 ^ 24 → d.get F.AX_CMEAS_SPD k = spdb) ∧
         (spdb ≤ s.dev.live F.AX_CATCH_BRKMAX k → starts d 0 0) ∧ (s.dev.live F.AX_CATCH_BRKMAX k < spdb → brakes d)))) ∧
    (retries → Gives s (.retryDelayEnd axis) fun d => others d ∧ catches d ∧ (d.comm k).wait = false ∧
      d.flag F.AX_SSTAT_WAIT k = false ∧ d.get F.AX_SSTAT_ATTEMPT k = (s.dev.get F.AX_SSTAT_ATTEMPT k + 1) % 8)

/-- R259, R262, R264, R267, R269, R270: an attempt that fails is retried while attempts remain and is START_FAIL after
that; REV_TIMEOUT, OBS_LOST and START_FAIL request the stored stop policy, and so does the end of a RAMP by TIMEOUT its
fallback. (Stated of a sensorless axis outside a RAMP, for which a stored RAMP has no angle, and of the RAMP itself on
any axis.) Of two causes that hold in one tick, FCAUSE takes the first of R259's table (log entry 17, the model's choice). -/
def Obligations.SequencerFaults : Prop :=
  ∀ (s : State) (axis : Fin 8),
    let k := axis.val
    let c := s.dev.comm k
    let now := s.dev.clk.frameStart
    let held := c.held = true ∨ s.dev.live F.AX_SCFG_HORATE k ≤ c.rate.natAbs / 65536
    let noCross := held ∧ s.dev.live F.AX_SRAMP_SDWELL k ≤ c.ticks
    let climbs := s.dev.live F.AX_SEQT_SCLN k ≤ c.clRuns ∧ 0 < c.clRuns
    let fails := c.st = .start ∧ (noCross ∨ climbs)
    let revTo := c.st = .brake ∧ c.cycleAt = now ∧ c.since < now ∧ c.since + s.dev.live F.AX_CATCH_TBRK k * 40000000 ≤ now
    let lostFor := c.st = .lost ∧ s.dev.live F.AX_SEQT_REACQ k ≤ c.ticks
    let rampEnds := ∃ t, c.ramp = some t ∧ t + s.dev.get F.AX_RAMP_TRAMP k * 4000000 ≤ now
    let stopped := fun d : Dev => (∀ j ∈ s.dev.gang k, d.cst j = .safe ∧
        (s.dev.cst j = .run → uget d.link.stopReq j = some (s.dev.stored j)) ∧
        (s.dev.cst j = .armed → uget d.link.stopReq j = some .none)) ∧
      (∀ j, j < 8 → j ∉ s.dev.gang k → d.cst j = s.dev.cst j) ∧ (s.dev.cst k = .run → (d.comm k).st = .idle ∨ c.st = .enc) ∧
      d.ev (8 * k + 5) = true ∧ (d.axis k).sstatTick = d.reg (F.AX_SSTAT.at_ k)
    s.dev.partner k ≠ some 8 →
    (¬fails → exec (.startAttemptFail axis) s = .next s) ∧ (¬revTo → exec (.brakeTimeout axis) s = .next s) ∧
    (¬lostFor → exec (.reacqTimeout axis) s = .next s) ∧ (¬rampEnds → exec (.rampTimeout axis) s = .next s) ∧
    (rampEnds → Gives s (.rampTimeout axis) fun d => stopped d ∧ d.flag F.AX_SSTAT_RAMP k = false ∧ (d.comm k).ramp = none ∧
      d.get F.AX_SSTAT_REND k = 2) ∧
    (fails → s.dev.get F.AX_SSTAT_ATTEMPT k < s.dev.live F.AX_SCFG_RETRY k → Gives s (.startAttemptFail axis) fun d =>
      d.get F.AX_SSTAT_FCAUSE k = (if noCross then 1 else 2) ∧ (d.comm k).st = .catch_ ∧ (d.comm k).wait = true ∧
      (d.comm k).since = now ∧ (d.comm k).wen = false ∧ (d.comm k).allFloat = true ∧ d.flag F.AX_SSTAT_WAIT k = true ∧
      d.get F.AX_CSTAT_STATE k = 1 ∧ (∀ j, j < 8 → d.cst j = s.dev.cst j)) ∧
    (s.dev.lead k = k → (s.dev.topo k).drive ≠ 2 → c.ramp = none →
      (fails → s.dev.live F.AX_SCFG_RETRY k ≤ s.dev.get F.AX_SSTAT_ATTEMPT k → Gives s (.startAttemptFail axis) fun d =>
        stopped d ∧ d.get F.AX_SSTAT_FCAUSE k = (if noCross then 1 else 2) ∧ d.flag F.AX_SSTAT_SFAIL k = true) ∧
      (revTo → Gives s (.brakeTimeout axis) fun d => stopped d ∧ d.flag F.AX_SSTAT_REVTO k = true) ∧
      (lostFor → Gives s (.reacqTimeout axis) fun d => stopped d ∧ d.flag F.AX_SSTAT_OBSLOST k = true))

/-- R238, R242, R250, R257, R263: at a window edge the window that θ has left closes and releases its leg, a window that
it has left on the far side without a valid crossing is a miss, and the window it has entered opens and floats its leg.
In START a miss sets CONSV to 0; in TRACK the LOSSN-th in a row enters LOST with every leg floating. -/
def Obligations.FloatWindows : Prop :=
  ∀ (s : State) (axis : Fin 8) (t : Nat),
    let e : Instr := .windowEdge axis t
    let k := axis.val
    let a := s.dev.at_ t
    let c := a.comm k
    let now := a.windowRow k
    let leg := fun r => 3 * k + rowPhase r
    let opens := now.map fun r => ({ row := r } : Window)
    (s.dev.primary k = false → Gives s e fun d => d = a) ∧
    (s.dev.primary k = true →
      (c.win = none → Gives s e fun d => (d.comm k).win = opens ∧ (d.comm k).st = c.st ∧ d.clk = a.clk ∧
        (now = none → d = a) ∧ (∀ r, now = some r → (d.leg (leg r)).cfloat = true)) ∧
      (∀ w, c.win = some w →
        let crossed := c.wen = true ∧ ((s.dev.topo k).drive = 0 ∨ s.dev.live F.AX_CTHR_RMIN k * 65536 ≤ c.rate.natAbs) ∧
          c.pastFar w.row = true ∧ w.got = false
        let n := min (c.missc + 1) 15
        (now = some w.row → Gives s e fun d => d = a) ∧
        (now ≠ some w.row → (c.st ≠ .start ∧ c.st ≠ .track) ∨ ¬crossed → Gives s e fun d =>
          (d.comm k).win = opens ∧ (d.comm k).st = c.st ∧ (d.comm k).missc = c.missc ∧ (d.comm k).miss = c.miss ∧
          d.get F.AX_CCNT_MCNT k = s.dev.get F.AX_CCNT_MCNT k ∧
          ((∀ r, now = some r → leg r ≠ leg w.row) → (d.leg (leg w.row)).cfloat = false)) ∧
        (now ≠ some w.row → c.st = .start → crossed → Gives s e fun d =>
          (d.comm k).win = opens ∧ (d.comm k).missc = n ∧ (d.comm k).miss = true ∧ d.get F.AX_SSTAT_CONSV k = 0 ∧
          (d.comm k).st = .start ∧ d.get F.AX_CCNT_MCNT k = min (s.dev.get F.AX_CCNT_MCNT k + 1) 2047) ∧
        (now ≠ some w.row → c.st = .track → crossed → n < s.dev.live F.AX_SEQT_LOSSN k → Gives s e fun d =>
          (d.comm k).win = opens ∧ (d.comm k).missc = n ∧ (d.comm k).st = .track ∧
          d.get F.AX_CCNT_MCNT k = min (s.dev.get F.AX_CCNT_MCNT k + 1) 2047) ∧
        (now ≠ some w.row → c.st = .track → crossed → s.dev.live F.AX_SEQT_LOSSN k ≤ n → c.ramp = none → Gives s e fun d =>
          (d.comm k).st = .lost ∧ (d.comm k).wen = false ∧ (d.comm k).win = none ∧ (d.comm k).allFloat = true ∧
          ((d.comm k).lossBack = true ↔ c.rate < 0) ∧ (d.comm k).g = c.g ∧ (d.comm k).rate = c.rate ∧
          d.ev (8 * k + 5) = true ∧ d.get F.AX_CCNT_MCNT k = min (s.dev.get F.AX_CCNT_MCNT k + 1) 2047)))

/-! ### Registers and the host port (chapters 17 and 20) -/

/-- R7 to R10, R50, R467: a write is judged field by field and is refused whole or taken whole: RW takes the value, RO
keeps its own, W1C clears the bits written as 1, RWS sets them, WO stores nothing, WDN takes a new value from the warden
only, SEAL none after the seal, LIVE only a value within its range. A refused write of the host shows in its port's
status, one of another master changes nothing; an address without a register discards the write. A write of CON_PRIO that no
field of it refuses counts in the arbitrations from the next cycle on (R326; log entry 60, the model's choice of that cycle). A
host's write before its port is up has no effect (R373). (CAN_FCODE and CAN_FMASK hold the word of the selected filter, R349.
Registers whose writes act have their own statements.) -/
def Obligations.RegisterWrites : Prop :=
  ∀ (s : State) (m : Master) (addr : BitVec 16) (w : Word),
    let a := addr.toNat
    let c : Instr := .registerWrite m addr w
    let old := fun f : FAcc => fget (s.dev.present a) f.lo f.width
    let new := fun f : FAcc => fget w f.lo f.width
    let inRange := fun f : FAcc => ∃ r, s.dev.rangeOf a f.lo f.width = some r ∧ r.holds (new f) = true
    let refuses := fun f : FAcc =>
      (f.acc = .seal ∧ s.dev.sys.sealed = true ∧ new f ≠ old f) ∨ (f.acc = .wdn ∧ m ≠ .warden ∧ new f ≠ old f) ∨
      (f.acc = .wdnWo ∧ m ≠ .warden ∧ new f ≠ 0) ∨
      (f.acc = .live ∧ s.dev.sys.sealed = true ∧ ¬inRange f ∧ (s.dev.rangeOf a f.lo f.width ≠ none ∨ new f ≠ old f))
    let takes := fun (f : FAcc) (v : Nat) => match f.acc with
      | .ro => v = old f
      | .w1c => v = old f - (old f &&& new f)
      | .rws => v = old f ||| new f
      | .wo => v = 0
      | .wdnWo => v = 0
      | _ => v = new f
    let p32 := (a % 128 = 0x01 ∨ a % 128 = 0x11 ∨ a % 128 = 0x12) ∧ 0x400 ≤ a ∧ a < 0x800
    let acts := a = 0x14 ∨ a = 0x104 ∨ (0x110 ≤ a ∧ a < 0x130) ∨ (0x200 ≤ a ∧ a < 0x204) ∨ a = 0xB44 ∨
      (0xC00 ≤ a ∧ a < 0x1000 ∧ a % 64 = 0x12) ∨ (0x1000 ≤ a ∧ a < 0x1800 ∧ a % 8 = 5) ∨ (0x1860 ≤ a ∧ a < 0x18C0) ∨
      (0x1900 ≤ a ∧ a < 0x1A00 ∧ a % 32 = 3) ∨ (0x1A00 ≤ a ∧ a < 0x1AA0 ∧ a % 16 = 6) ∨ a = 0x1AA1 ∨
      a = 0x1B00 ∨ (0x1C00 ≤ a ∧ a < 0x1E00) ∨ (0x1E40 ≤ a ∧ a < 0x1E80) ∨ a = 0x2001 ∨ (0x2004 ≤ a ∧ a < 0x200C) ∨ a = 0x2101
    let up := s.dev.awake = true ∧ (m = .host → s.dev.sys.portUp = true)
    (¬up → exec c s = .next s) ∧
    (up → regRow a = none → exec c s = .next s) ∧
    (up → regRow a ≠ none → (∃ f ∈ fieldsAt a, refuses f) →
      (m ≠ .host → exec c s = .next s) ∧
      (m = .host → Gives s c fun d => s.dev.regsOnly d [F.HST_STAT.at_ 0] ∧ d.get F.HST_STAT_LSTAT = 1 ∧
        d.get F.HST_STAT_LADDR = a % 2 ^ 15)) ∧
    (up → regRow a ≠ none → (∀ f ∈ fieldsAt a, ¬refuses f) → ¬acts → w.getLsbD 39 = false → Gives s c fun d =>
      s.dev.regsOnly d [a] ∧
      (p32 → d.reg a = satWord w.toInt) ∧
      (¬p32 → ∀ f ∈ fieldsAt a, takes f (fget (d.reg a) f.lo f.width))) ∧
    (∀ n : Fin 4, up → a = 0x200 + n.val → m ≠ .warden → w.getLsbD 39 = false → Gives s c fun d =>
      s.dev.regsOnly d [a] ∧ ∀ i, i < 32 → d.bit F.EVT_STAT n i =
        (s.dev.bit F.EVT_STAT n i && !(w.getLsbD i && !s.dev.bit F.EVT_WRT n i))) ∧
    (up → a = F.HST_CNT.at_ 0 → w.getLsbD 39 = true → Gives s c fun d => s.dev.regsOnly d [a] ∧
      d.get F.HST_CNT_CRCCNT = 0 ∧ d.get F.HST_CNT_FRMCNT = 0) ∧
    (up → a = F.CON_PRIO.at_ 0 → (∀ f ∈ fieldsAt a, ¬refuses f) → (∀ n x, s.dev.con.prio = some (n, x) → n ≤ s.dev.clk.now) →
      Gives s c fun d => s.dev.keepsRegs d [a] ∧ ∀ q, q < 17 →
        d.conLevel s.dev.clk.now q = s.dev.conLevel s.dev.clk.now q ∧
        d.conLevel (s.dev.clk.now + 1) q = (w.extractLsb' (2 * q) 2).toNat) ∧
    (∀ n : Fin 8, up → a = F.WDN_MBARG.at_ n → Gives s c fun d =>
      (s.dev.get F.WDN_MBSTAT_STATE ≠ 1 → s.dev.regsOnly d [a] ∧ d.reg a = w) ∧
      (s.dev.get F.WDN_MBSTAT_STATE = 1 → d.reg a = s.dev.reg a ∧ s.dev.regsOnly d [F.HST_STAT.at_ 0]))

/-- R364 to R373, R320, R322: a frame of the host port shifts out the response of the frame before it. One with a wrong
CRC, or out of its burst's sequence, is answered with its status, counted and not performed; a read of a register answers
with its value and leaves it in HST_LAST, a read or write of an address without one answers UNMAPPED, a write that is
refused REFUSED, and a frame of the Caldera window is refused, NOTREADY or a request of Q12. A frame that the port cannot
take leaves its burst dead (log entry 83). That an error answers with data 0, and that HST_LAST takes only reads answered OK, are
the model's choices (log entry 66). -/
def Obligations.HostFrames : Prop :=
  ∀ (s : State) (bits : BitVec 64),
    let c : Instr := .hostFrame bits
    let rd := bits.getLsbD 63
    let a := (bits.extractLsb' 48 15).toNat
    let w : Word := bits.extractLsb' 8 40
    let h := s.dev.host
    let crcOk := crc8 (frameBytes bits.toNat) = (bits.extractLsb' 0 8).toNat
    let opened := s.dev.awake = true ∧ s.dev.sys.portUp = true ∧ h.dead = false
    let broken := h.burst ≠ none ∧ h.seqErr = true
    let inSeq := ∀ b, h.burst = some b → rd = b.1 ∧ a = burstAddr b.2.1 b.2.2
    let taken := opened ∧ h.window = none ∧ ¬broken ∧ crcOk ∧ inSeq
    let moves := fun d : Dev => d.host.shifted = some (h.resp.getD (respFrame 0 0x0F 0)) ∧
      d.host.burst = some (match h.burst with
        | none => (rd, a, 1)
        | some b => (b.1, b.2.1, b.2.2 + 1))
    let answers := fun (d : Dev) (st : Nat) (v : Word) => moves d ∧ d.host.resp = some (respFrame a st v) ∧
      (st ≠ 0 → d.get F.HST_STAT_LSTAT = st ∧ d.get F.HST_STAT_LADDR = a)
    let failed := fun (d : Dev) (st : Nat) => answers d st 0 ∧ d.host.spoiled = true ∧ d.ev 127 = true ∧
      s.dev.regsOnly { d with host := h } [F.HST_STAT.at_ 0, F.HST_CNT.at_ 0, F.EVT_STAT.at_ 3]
    let journal := h.burst ≠ none ∧ h.jnl = true ∨ h.burst = none ∧ a = 0x1E40
    let cmdw := 0x1E40 ≤ a ∧ a < 0x1E80
    let canw := 0x1C00 ≤ a ∧ a < 0x1E00 ∧ 0x40 ≤ a % 128 ∧ a % 128 < 0x60
    (s.dev.awake = false ∨ s.dev.sys.portUp = false → exec c s = .next { s with dev := { s.dev with host := { h with dead := true } } }) ∧
    (h.dead = true → s.dev.awake = true → s.dev.sys.portUp = true → exec c s = .next s) ∧
    (∀ f p, opened → rd = true → h.window = some (f, p) → Gives s c fun d => d.host.shifted =
      some (respFrame f.addr 2 (if f.rd then 0 else f.data))) ∧
    (opened → h.window = none → broken → Gives s c fun d => failed d 9 ∧ d.flag F.HST_STAT_FRME = true ∧
      d.get F.HST_CNT_FRMCNT = min (s.dev.get F.HST_CNT_FRMCNT + 1) 65535) ∧
    (opened → h.window = none → ¬broken → ¬crcOk → Gives s c fun d => failed d 8 ∧ d.flag F.HST_STAT_CRCE = true ∧
      d.get F.HST_CNT_CRCCNT = min (s.dev.get F.HST_CNT_CRCCNT + 1) 65535) ∧
    (opened → h.window = none → ¬broken → crcOk → ¬inSeq → Gives s c fun d => failed d 9 ∧ d.host.seqErr = true ∧
      d.flag F.HST_STAT_FRME = true ∧ d.get F.HST_CNT_FRMCNT = min (s.dev.get F.HST_CNT_FRMCNT + 1) 65535) ∧
    (taken → a < 0x4000 → rd = true →
      (cmdw → Gives s c fun d => answers d 0 0 ∧ d.reg (F.HST_LAST.at_ 0) = 0) ∧
      (¬cmdw → regRow a = none → Gives s c fun d => answers d 4 0 ∧ s.dev.regsOnly { d with host := h } [F.HST_STAT.at_ 0]) ∧
      (¬cmdw → regRow a ≠ none → Gives s c fun d => answers d 0 (s.dev.readReg a) ∧
        (a ≠ 0x2203 → a ≠ 0x2204 → d.reg (F.HST_LAST.at_ 0) = s.dev.readReg a) ∧
        (a ≠ 0x1E05 → ¬canw → s.dev.regsOnly { d with host := h } [F.HST_LAST.at_ 0]) ∧
        (a = 0x1E05 → d.jnl = { s.dev.jnl with fifo := s.dev.jnl.fifo.drop 1 }))) ∧
    (taken → a < 0x4000 → rd = false →
      (cmdw → journal → Gives s c fun d => answers d 0 w ∧ d.regs = s.dev.regs ∧
        d.host.words = (if h.burst = none then [] else h.words) ++ [w]) ∧
      (cmdw → ¬journal → Gives s c fun d => answers d 1 w ∧ s.dev.regsOnly { d with host := h } [F.HST_STAT.at_ 0]) ∧
      (¬cmdw → regRow a = none → Gives s c fun d => answers d 4 w ∧ s.dev.regsOnly { d with host := h } [F.HST_STAT.at_ 0]) ∧
      (¬cmdw → regRow a ≠ none → s.dev.judge .host a w = none → Gives s c fun d => answers d 1 w ∧
        s.dev.regsOnly { d with host := h } [F.HST_STAT.at_ 0]) ∧
      (a = 0x2202 → Gives s c fun d => answers d 0 w ∧ d.reg 0x2202 = w ∧ s.dev.regsOnly { d with host := h } [0x2202])) ∧
    (taken → 0x4000 ≤ a →
      let page := s.dev.get F.SYS_CWPAGE_PAGE
      let bank := bankOf (page * 16384 + (a - 0x4000))
      (s.dev.sys.calInit = true → Gives s c fun d => answers d 2 (if rd then 0 else w)) ∧
      (s.dev.sys.calInit = false → rd = false → s.dev.hostMayWrite bank = false → Gives s c fun d => answers d 1 w ∧
        d.ev 107 = true ∧ d.get F.CON_CNT_DENY = min (s.dev.get F.CON_CNT_DENY + 1) 65535) ∧
      (s.dev.sys.calInit = false → rd = true ∨ s.dev.hostMayWrite bank = true → Gives s c fun d =>
        moves d ∧ d.regs = s.dev.regs ∧ d.host.resp = none ∧ d.con.mem = s.dev.con.mem ∧
        (∃ r ∈ d.queue bank, r.req = 12 ∧ r.since = s.dev.clk.now ∧ r.addr = page * 16384 + (a - 0x4000)) ∧
        d.host.window = some ({ rd := rd, addr := a, data := w }, page))) ∧
    (∀ echo st v, st < 256 → (respFrame echo st v).extractLsb' 56 8 = BitVec.ofNat 8 echo ∧
      (respFrame echo st v).extractLsb' 48 8 = BitVec.ofNat 8 st ∧ (respFrame echo st v).extractLsb' 8 40 = v)

/-- R293, R322 to R325, R365, R367, R370 to R372: the end of a burst closes it, a partial frame is a framing error, and a
burst of the command window becomes a batch, whose commands are its words in order and which waits for its commit where its
checks pass, or one refusal of the whole; an access of the Caldera window is answered when its bank has granted and served it,
which then stays parked on the port while nothing waits for it, and withdrawn otherwise; a read of JNL_ACK removes the oldest record
and leaves its first half in HST_LAST. -/
def Obligations.BurstsAndWindow : Prop :=
  ∀ (s : State) (part : Fin 64) (ecc : Ecc) (done : Bool),
    let h := s.dev.host
    let opened := s.dev.awake = true ∧ s.dev.sys.portUp = true ∧ h.dead = false
    let shut : HostPort := { h with burst := none, seqErr := false, dead := false, words := [], jnl := false, spoiled := false }
    let c : Instr := .hostBurstEnd part
    let batch := h.burst ≠ none ∧ h.jnl = true
    let refused := fun (d : Dev) (st : Nat) => d.host = shut ∧ d.get F.JNL_RLAST_STATUS = st ∧ d.get F.JNL_RLAST_SOURCE = 0 ∧
      d.get F.JNL_RLAST_SEQ = 0 ∧ d.get F.JNL_CNT_REF = min (s.dev.get F.JNL_CNT_REF + 1) 65535 ∧ d.ev 108 = true ∧
      d.jnl.batches = s.dev.jnl.batches ∧ d.jnl.entries = s.dev.jnl.entries ∧
      (s.dev.jnl.fifo.length < 64 → d.jnl.fifo = s.dev.jnl.fifo ++ [{ src := 0, seq := 0, st := st, data := 0, code := 0 }])
    (¬opened → Gives s c fun d => d = { s.dev with host := shut }) ∧
    (opened → ¬batch → part.val = 0 → Gives s c fun d => d = { s.dev with host := shut }) ∧
    (opened → ¬batch → part.val ≠ 0 → Gives s c fun d => d = { s.dev with regs := d.regs, host := shut } ∧
      s.dev.keepsRegs d [F.HST_STAT.at_ 0, F.HST_CNT.at_ 0, F.EVT_STAT.at_ 3] ∧ d.flag F.HST_STAT_FRME = true ∧
      d.get F.HST_CNT_FRMCNT = min (s.dev.get F.HST_CNT_FRMCNT + 1) 65535 ∧ d.ev 127 = true) ∧
    (opened → batch → s.dev.sys.sealed = false → Gives s c fun d => refused d 0x19) ∧
    (opened → batch → s.dev.sys.sealed = true → h.spoiled = true ∨ part.val ≠ 0 ∨ h.words.length = 1 → Gives s c fun d =>
      refused d 0x14) ∧
    (∀ cmds, opened → batch → s.dev.sys.sealed = true → h.spoiled = false → part.val = 0 →
      hostCmds h.words.length h.words = some cmds →
      let x := Dev.commitAll { s.dev with host := shut } s.otp
      let w := x.walk s.otp 0 cmds x.jnl
      anyRefused w.2 = false → x.batchFault (newCount w.2) = none → Gives s c fun d =>
        d = { x with jnl := { x.jnl with batches := x.jnl.batches ++ [{ cmds := cmds, path := 0 }] } }) ∧
    (s.dev.jnl.batches = [] → Dev.commitAll { s.dev with host := shut } s.otp = { s.dev with host := shut }) ∧
    (∀ (w0 w1 : Word) (args : List Word), args.length = (w1.extractLsb' 8 2).toNat → w1.getLsbD 11 = false →
      hostCmds (args.length + 2) (w0 :: w1 :: args) =
        some [{ src := (w0.extractLsb' 0 8).toNat, seq := (w0.extractLsb' 8 24).toNat, code := (w0.extractLsb' 32 8).toNat,
                mask := (w1.extractLsb' 0 8).toNat, flags := (w1.extractLsb' 8 32).toNat, args := args, tag := none }]) ∧
    (h.window = none → exec (.calderaWindowAccess done ecc) s = .next s) ∧
    (∀ f p, h.window = some (f, p) →
      let x := p * 16384 + (f.addr - 0x4000)
      let bank := bankOf x
      let answers := fun (d : Dev) (st : Nat) (v : Word) => d.host = { h with window := none, resp := some (respFrame f.addr st v) } ∧
        (st ≠ 0 → d.get F.HST_STAT_LSTAT = st ∧ d.get F.HST_STAT_LADDR = f.addr % 2 ^ 15)
      (Gives s (.calderaWindowAccess false ecc) fun d => answers d 2 (if f.rd then 0 else f.data) ∧
        d.con.mem = s.dev.con.mem ∧ ∀ r ∈ d.queue bank, r.req ≠ 12) ∧
      let g := s.dev.granted bank fun r => r.req == 12
      (g.2 = none → exec (.calderaWindowAccess true ecc) s = .next s) ∧
      (∀ r, g.2 = some r →
        let b := g.1.grantEnds bank r
        (f.rd = false → Gives s (.calderaWindowAccess true ecc) fun d => answers d 0 f.data ∧ d.cal x = f.data ∧
          (∀ y, y ≠ x → d.cal y = b.cal y) ∧ d.regs = b.regs ∧
          uget d.con.parked bank = if b.candidates bank = [] then some 12 else none) ∧
        (f.rd = true → x ∉ b.con.bad → x ∉ b.con.wb → Gives s (.calderaWindowAccess true .ok) fun d => answers d 0 (b.cal x) ∧
          (∀ y, d.cal y = b.cal y) ∧ d.reg (F.HST_LAST.at_ 0) = b.cal x ∧ b.keepsRegs d [F.HST_LAST.at_ 0]) ∧
        (f.rd = true → x ∉ b.con.bad → Gives s (.calderaWindowAccess true .corrected) fun d => answers d 0 (b.cal x) ∧
          x ∈ d.con.wb ∧ d.get F.CON_ECC_SCNT = min (b.get F.CON_ECC_SCNT + 1) 4095 ∧ d.get F.CON_ECC_ADDR = x % 2 ^ 19) ∧
        (f.rd = true → Gives s (.calderaWindowAccess true .uncorrectable) fun d => answers d 3 0 ∧ (∀ y, d.cal y = b.cal y) ∧
          x ∈ d.con.bad ∧ d.get F.CON_ECC_UCNT = min (b.get F.CON_ECC_UCNT + 1) 255 ∧ d.ev 105 = true) ∧
        (f.rd = true → x ∈ b.con.bad →
          exec (.calderaWindowAccess true ecc) s = exec (.calderaWindowAccess true .uncorrectable) s))) ∧
    (s.dev.hostUp = false → exec .jnlAckRead s = .next s) ∧
    (s.dev.hostUp = true → s.dev.jnl.fifo = [] → Gives s .jnlAckRead fun d => s.dev.regsOnly d [F.HST_LAST.at_ 0] ∧
      d.reg (F.HST_LAST.at_ 0) = 0xFF00000000#40) ∧
    (∀ x rest, s.dev.hostUp = true → s.dev.jnl.fifo = x :: rest → Gives s .jnlAckRead fun d =>
      d = { s.dev with regs := d.regs, jnl := { s.dev.jnl with fifo := rest } } ∧
      s.dev.keepsRegs d [F.JNL_AFIFO.at_ 0, F.JNL_ACKD.at_ 0, F.HST_LAST.at_ 0] ∧
      d.reg (F.HST_LAST.at_ 0) = BitVec.ofNat 40 (x.src + x.seq * 2 ^ 8 + x.st * 2 ^ 32) ∧
      d.get F.JNL_AFIFO_COUNT = rest.length % 128 ∧
      d.get F.JNL_ACKD_DATA = x.data % 2 ^ 32 ∧ d.get F.JNL_ACKD_CODE = x.code % 256)

/-! ### Commands and the journal (chapter 14) -/

/-- R50, R291, R303, R305, R308: HELLO has no effect; SETPOINT and MODE write their register of every named axis, or of
none; PARAM writes the LIVE fields of one register and keeps the value in the parameter table; QUERY reads. Each
completes at execution with its status in the source's record, and with a record to the source's path where one is
wanted. A mask that names a disabled or secondary axis completes ACCESS. (That a command that breaks its row never executes,
log entry 35, that ACCESS comes before RANGE and RANGE before FULL, log entry 54, and that the entry of a command that is
executed directly leaves the journal, log entry 53, unless the journal has halted, are the model's choices.) (Stated of a command that executes by itself, and of the removal of its journal entry where it has one;
`u` is the device with the journal engine's reservation for this command open, R304.) -/
def Obligations.JournalWrites : Prop :=
  ∀ (s : State) (e : JCmd) (code : Nat),
    let src := e.src.toNat
    let seq := e.seq.toNat
    let mask := e.mask.toNat
    let arg0 := e.arg0.toNat
    let reg := arg0 % 2 ^ 16
    let u := s.dev.jnlOpen
    let live := s.dev.awake = true ∧ s.dev.sys.sealed = true
    let alone := ∀ x ∈ s.dev.jnl.entries, ¬(x.src = src ∧ x.seq = seq ∧ x.code = code)
    let prims := ∀ k, k < 8 → mask.testBit k = true → s.dev.primary k = true
    let fin := fun (d : Dev) (st data : Nat) =>
      (∀ x r, s.dev.jnl.source src = some x → x.record seq = some r →
        ∃ y, d.jnl.source src = some y ∧ y.record seq = some { seq := seq, code := code, st := st }) ∧
      ((∀ x, s.dev.jnl.source src = some x → x.path = 0) → s.dev.jnl.fifo.length < 64 →
        d.jnl.fifo = s.dev.jnl.fifo ++ (if e.reqDone = true ∨ st ≠ 1 then [{ src := src, seq := seq, st := st, data := data, code := code }] else [])) ∧
      d.jnl.entries = s.dev.jnl.entries ∧ d.vent = u.vent ∧ d.link = s.dev.link
    let ctl := (s.dev.pathOf src - 1) % 4
    let reply := if s.dev.pathOf src = 0 then [F.JNL_AFIFO.at_ 0, F.EVT_STAT.at_ 3] else [F.CAN_CNT2.at_ ctl, F.EVT_STAT.at_ 2]
    let keeps := fun (d : Dev) (l : List Nat) => u.keepsRegs d (l ++ reply)
    let c : Instr := match code with
      | 1 => .hello e
      | 2 => .setpoint e
      | 3 => .mode e
      | 8 => .param e
      | _ => .query e
    let i := if code = 2 then 1 + e.arg1.toNat else 0
    let v : Word := if code = 3 then e.arg0 else if e.arg1.toNat < 2 then satWord e.arg0.toInt else e.arg0
    let axes := (List.range 8).filter fun k => mask.testBit k
    let may := ∀ k, k < 8 → mask.testBit k = true → (u.judge .journal (F.AX_MODE.at_ k + i) e.arg0).isSome = true
    let row := (code = 1 ∧ mask = 0) ∨ (code = 2 ∧ mask ≠ 0 ∧ e.arg1.toNat < 3) ∨ (code = 3 ∧ mask ≠ 0 ∧ arg0 < 4) ∨
      (code = 8 ∧ mask = 0 ∧ arg0 < 2 ^ 16) ∨ (code = 9 ∧ mask = 0 ∧ arg0 < 2 ^ 17)
    code ∈ [1, 2, 3, 8, 9] →
    (¬live ∨ ¬row → exec c s = .next s) ∧
    (live → row → alone → ¬prims → Gives s c fun d => fin d 0x21 0 ∧ keeps d []) ∧
    (live → row → alone → code = 1 → Gives s c fun d => fin d 1 0 ∧ keeps d []) ∧
    (live → row → ∀ x, (s.dev.jnl.entries.find? fun x => x.src == src && x.seq == seq && x.code == code) = some x →
      (s.dev.jnl.mirror = 3 → exec c s = .next s) ∧
      (code = 1 → s.dev.jnl.mirror < 3 → (∀ a ∈ s.dev.con.bad, bankOf a < 14) → Gives s c fun d =>
        d.jnl.entries = s.dev.jnl.entries.filter fun y => y.slot != x.slot)) ∧
    (live → row → alone → prims → code = 2 ∨ code = 3 → may → Gives s c fun d => fin d 1 0 ∧
      keeps d (axes.map fun k => F.AX_MODE.at_ k + i) ∧
      (∀ k, k < 8 → mask.testBit k = true → d.reg (F.AX_MODE.at_ k + i) = v ∧ uget d.jnl.axisRec (4 * k + i) = v) ∧
      (s.dev.jnl.mirror = 0 → s.dev.resvOf 10 = none → s.dev.jnl.unwritten = [] → ∃ r ∈ d.con.resv, r.req = 10 ∧
        r.held ++ r.banks = [14, 15] ∧ ∀ k, k < 8 → mask.testBit k = true →
          (calAddr 14 (0x1E00 + 8 * k + i), v) ∈ r.staged ∧ (calAddr 15 (0x1E00 + 8 * k + i), v) ∈ r.staged)) ∧
    (live → row → alone → prims → code = 2 ∨ code = 3 → ¬may → Gives s c fun d => fin d 0x20 0 ∧ keeps d [] ∧
      d.jnl.axisRec = s.dev.jnl.axisRec) ∧
    (live → row → alone → code = 8 →
      let known := ∃ x ∈ s.dev.jnl.params, x.1 = reg
      (hasLive reg = false → Gives s c fun d => fin d 0x21 0 ∧ keeps d []) ∧
      (hasLive reg = true → u.judgeLive reg e.arg1 = none → Gives s c fun d => fin d 0x20 0 ∧ keeps d []) ∧
      (∀ x, hasLive reg = true → u.judgeLive reg e.arg1 = some x →
        (¬known → 256 ≤ s.dev.jnl.params.length → Gives s c fun d => fin d 0x24 0 ∧ keeps d []) ∧
        (known ∨ s.dev.jnl.params.length < 256 → Gives s c fun d => fin d 1 0 ∧ keeps d [reg] ∧ d.reg reg = regTake reg x ∧
          (∃ n, (reg, n, e.arg1) ∈ d.jnl.params) ∧ (∀ p ∈ d.jnl.params, p.1 = reg → p.2.2 = e.arg1) ∧
          (∀ p, p.1 ≠ reg → (p ∈ d.jnl.params ↔ p ∈ s.dev.jnl.params))))) ∧
    (live → row → alone → code = 9 →
      let canw := 0x1C00 ≤ reg ∧ reg < 0x1E00 ∧ 0x40 ≤ reg % 128 ∧ reg % 128 < 0x60
      (regRow reg = none ∨ reg = 0x1E05 ∨ canw → Gives s c fun d => fin d 0x21 0 ∧ keeps d []) ∧
      (regRow reg ≠ none → reg ≠ 0x1E05 → ¬canw → Gives s c fun d => keeps d [] ∧
        fin d 1 (if arg0.testBit 16 then (u.readReg reg).toNat / 2 ^ 32 else (u.readReg reg).toNat % 2 ^ 32)))

/-- R116, R270, R305, R307, R404, R418, R421: a START is refused while an axis is not SAFE, has a pending operation or
cannot be armed, and otherwise stays pending while the warden arms its axes; a STOP requests the stored policy of each
named axis in RUN and stays pending; an ABORT abandons a START that is still pending; a CLEAR_FAULT sends the clear of
the named axes and brake legs. A warden that a mismatch has stopped checks and arms nothing and sends no clear (R383). (That a
command that breaks its row never executes, log entry 35, and that an ABORT of a START that is accepted and not yet executed
completes NOTARGET, log entry 56, are the model's choices. `u` is the device with the journal engine's reservation for this command open, R304.) -/
def Obligations.JournalAuthority : Prop :=
  ∀ (s : State) (e : JCmd),
    let src := e.src.toNat
    let seq := e.seq.toNat
    let mask := e.mask.toNat
    let target := e.arg0.toNat
    let u := s.dev.jnlOpen
    let live := s.dev.awake = true ∧ s.dev.sys.sealed = true
    let alone := fun code : Nat => ∀ x ∈ s.dev.jnl.entries, ¬(x.src = src ∧ x.seq = seq ∧ x.code = code)
    let prims := ∀ k, k < 8 → mask.testBit k = true → s.dev.primary k = true
    let axes := s.dev.maskAxes mask
    let fin := fun (d : Dev) (code st : Nat) =>
      (∀ x r, s.dev.jnl.source src = some x → x.record seq = some r →
        ∃ y, d.jnl.source src = some y ∧ y.record seq = some { seq := seq, code := code, st := st }) ∧
      ((∀ x, s.dev.jnl.source src = some x → x.path = 0) → s.dev.jnl.fifo.length < 64 →
        (e.reqDone = true ∨ st ≠ 1) → { src := src, seq := seq, st := st, data := 0, code := code } ∈ d.jnl.fifo)
    let ctl := (s.dev.pathOf src - 1) % 4
    let reply := if s.dev.pathOf src = 0 then [F.JNL_AFIFO.at_ 0, F.EVT_STAT.at_ 3] else [F.CAN_CNT2.at_ ctl, F.EVT_STAT.at_ 2]
    let keeps := fun (d : Dev) (l : List Nat) => u.keepsRegs d (l ++ reply)
    let stopped := s.dev.wdn.stopped = true
    let busy := ∃ k ∈ axes, u.cst k ≠ .safe ∨ s.dev.jnl.opOf k ≠ none
    let op := fun start : Bool => ({ src := src, seq := seq, start := start, reqDone := e.reqDone, mask := mask } : PendOp)
    (¬live ∨ mask = 0 → exec (.start e) s = .next s ∧ exec (.stop e) s = .next s) ∧
    (¬live ∨ mask ≠ 0 ∨ 2 ^ 24 ≤ target → exec (.abort e) s = .next s) ∧
    (¬live ∨ 16 ≤ target ∨ (mask = 0 ∧ target = 0) → exec (.clearFault e) s = .next s) ∧
    (live → mask ≠ 0 → ¬prims →
      (alone 4 → Gives s (.start e) fun d => fin d 4 0x21 ∧ keeps d [] ∧ d.jnl.ops = s.dev.jnl.ops) ∧
      (alone 5 → Gives s (.stop e) fun d => fin d 5 0x21 ∧ keeps d [] ∧ d.jnl.ops = s.dev.jnl.ops) ∧
      (target < 16 → alone 7 → Gives s (.clearFault e) fun d => fin d 7 0x21 ∧ keeps d [] ∧ d.link = s.dev.link)) ∧
    (live → mask ≠ 0 → prims → alone 4 → busy → Gives s (.start e) fun d => fin d 4 0x22 ∧ keeps d [] ∧
      d.jnl.ops = s.dev.jnl.ops ∧ d.link = s.dev.link) ∧
    (∀ k, live → mask ≠ 0 → prims → alone 4 → ¬busy → ¬stopped → (axes.find? fun k => u.armReason k != 0) = some k → k < 8 →
      Gives s (.start e) fun d => fin d 4 0x22 ∧ keeps d [F.WDN_ARMREF.at_ 0] ∧ d.link = s.dev.link ∧
        d.get F.WDN_ARMREF_AXIS = k ∧ d.get F.WDN_ARMREF_REASON = u.armReason k % 16 ∧ d.jnl.ops = s.dev.jnl.ops) ∧
    (live → mask ≠ 0 → prims → alone 4 → ¬busy → (∀ k ∈ axes, (stopped ∨ u.armReason k = 0) ∧ k < 8) →
      (s.dev.link.arm ≠ none ∨ stopped ∨ s.dev.jnl.toArm = []) → Gives s (.start e) fun d =>
      d.jnl.ops = s.dev.jnl.ops ++ [op true] ∧ d.jnl.fifo = s.dev.jnl.fifo ∧ (∀ k, k < 8 → d.cst k = u.cst k) ∧
      (∀ k, k < 8 → mask.testBit k = true → d.get F.AX_CMD_SOURCE k = src ∧ d.get F.AX_CMD_SEQ k = seq ∧ d.get F.AX_CMD_KIND k = 1) ∧
      (∀ k ∈ axes, ∀ i, i < 10 → d.get F.COR_DIAG_PULL (10 * k + i) = if stopped then u.get F.COR_DIAG_PULL (10 * k + i) else 0) ∧
      (s.dev.link.arm ≠ none ∨ stopped → d.link = s.dev.link ∧ d.jnl.toArm = s.dev.jnl.toArm ++ axes) ∧
      (s.dev.link.arm = none → ¬stopped → ∃ k rest, axes = k :: rest ∧ d.jnl.toArm = rest ∧
        d.get F.DIE_ARM_AXIS = k ∧ ∃ x, d.link.arm = some x ∧ x.axis.val = k ∧ x.stage = .req ∧
          x.n1 = (Config.nonce1 u.free).toNat)) ∧
    (live → mask ≠ 0 → prims → alone 5 → s.dev.partner 7 ≠ some 8 → (∀ k, k < 8 → mask.testBit k = true → s.dev.jnl.opOf k = none) →
      Gives s (.stop e) fun d => d.jnl.ops = s.dev.jnl.ops ++ [op false] ∧
        (∀ k, k < 8 → mask.testBit k = true → d.get F.AX_CMD_KIND k = 2 ∧ d.get F.AX_CMD_SEQ k = seq) ∧
        (∀ k, k < 8 → mask.testBit k = true → s.dev.get F.LEG_CFG_POLICY (3 * k) ≠ 3 → d.cst k = .safe ∧
          (u.cst k = .run → uget d.link.stopReq k = some (s.dev.stored k) ∧ uget d.link.stopPkt k = some (s.dev.stored k)) ∧
          (u.cst k = .armed → uget d.link.stopReq k = some .none)) ∧
        (∀ k, k < 8 → mask = 2 ^ k → s.dev.get F.LEG_CFG_POLICY (3 * k) = 3 → u.cst k = .run → (u.comm k).ramp = none →
          u.hasAngle k = true → s.dev.lead k = k → d.cst k = .run ∧ (d.comm k).ramp = some u.clk.now)) ∧
    (live → mask = 0 → target < 2 ^ 24 → alone 6 →
      let pending := fun o : PendOp => o.start && o.src == src && o.seq == target
      (s.dev.jnl.source src = none → Gives s (.abort e) fun d => fin d 6 0x23 ∧ keeps d [] ∧ d.jnl.ops = s.dev.jnl.ops) ∧
      (∀ x o, s.dev.jnl.source src = some x → s.dev.jnl.ops.find? pending = some o →
        (∀ k ∈ s.dev.maskAxes o.mask, k < 8) → Gives s (.abort e) fun d =>
          o ∉ d.jnl.ops ∧ (∀ k ∈ s.dev.maskAxes o.mask, k ∉ d.jnl.toArm) ∧
          ((∀ k ∈ s.dev.jnl.toArm, k ∈ s.dev.maskAxes o.mask) → ∀ k ∈ s.dev.maskAxes o.mask,
            d.cst k = (if u.cst k = .run then .run else .safe))) ∧
      (∀ x, s.dev.jnl.source src = some x → s.dev.jnl.ops.find? pending = none → Gives s (.abort e) fun d => keeps d [] ∧
        d.jnl.ops = s.dev.jnl.ops ∧
        (x.record target = none → fin d 6 0x23) ∧
        (∀ r, x.record target = some r →
          (r.code = 4 → r.st ≠ 0 → (x.last + 2 ^ 24 - target) % 2 ^ 24 < 256 → fin d 6 0x02) ∧
          (r.code ≠ 4 ∨ r.st = 0 ∨ 256 ≤ (x.last + 2 ^ 24 - target) % 2 ^ 24 → fin d 6 0x23)))) ∧
    (live → target < 16 → mask ≠ 0 ∨ target ≠ 0 → prims → alone 7 →
      (s.dev.link.clr ≠ none → Gives s (.clearFault e) fun d => fin d 7 0x22 ∧ keeps d [] ∧ d.link = s.dev.link) ∧
      (s.dev.link.clr = none → Gives s (.clearFault e) fun d =>
        d.jnl.clr = some (src, seq, e.reqDone) ∧ d.jnl.fifo = s.dev.jnl.fifo ∧ (stopped → d.link = s.dev.link) ∧
        (¬stopped → ∃ q, d.link.clr = some q ∧ q.brakes = target ∧ (∀ k ∈ axes, q.axes.testBit k = true) ∧
          ∀ b, b < 4 → (q.sc.testBit b = true ↔ target.testBit b = true ∧ s.dev.flag F.BRK_FLT_SC b = true)) ∧
        (∀ k, k < 8 → mask.testBit k = true → d.flag F.AX_SSTAT_SFAIL k = false ∧ d.flag F.AX_SSTAT_REVTO k = false ∧
          d.flag F.AX_SSTAT_OBSLOST k = false) ∧
        ∀ x, (∀ k, k < 8 → x ≠ F.AX_SSTAT.at_ k) → d.reg x = u.reg x))

/-- R297 to R302, R309, R312: what the sequence number makes of a command, what a commit leaves of a batch of one
command, what refuses it, and when a source ages out. (`u` is the device once the journal engine has written the words that
waited, R333. That a commit waits while another reservation stands is the model's choice, log entry 31.) -/
def Obligations.BatchesAndSources : Prop :=
  ∀ (s : State) (c : Cmd),
    let j := s.dev.jnl
    let u := s.dev.jnlFlush
    let idle := u.con.resv = []
    let clean := idle ∧ ∀ a ∈ u.con.bad, bankOf a < 14
    let fate := s.dev.fateOf s.otp j c
    let free := j.entries.length < s.dev.jnlSize
    let commit : Instr := .batchCommit .ok .ok
    let refused := fun (d : Dev) (path st : Nat) => d.jnl.entries = j.entries ∧ d.get F.JNL_RLAST_STATUS = st ∧
      d.get F.JNL_RLAST_SEQ = c.seq % 2 ^ 24 ∧ d.get F.JNL_CNT_REF = min (s.dev.get F.JNL_CNT_REF + 1) 65535 ∧ d.ev 108 = true ∧
      (path = 0 → j.fifo.length < 64 → d.jnl.fifo = j.fifo ++ [c.ack st])
    (c.layoutOk = false → fate = .refused 0x14) ∧
    (c.layoutOk = true → s.dev.classOf c.src = none → fate = .refused 0x10) ∧
    (∀ r, c.layoutOk = true → s.dev.classOf c.src = some r → r.auth = false → c.tag = none →
      (j.source c.src = none → fate =
        if c.code ≠ 1 then .refused 0x10 else if j.freeSlot = none then .refused 0x15 else .new true) ∧
      (∀ x, j.source c.src = some x →
        let n := (c.seq + 2 ^ 24 - x.last) % 2 ^ 24
        (n = 1 → fate = .new false) ∧ (n = 0 ∨ 2 ^ 24 - 255 ≤ n → fate = .dup) ∧
        (2 ≤ n → n < 2 ^ 24 - 255 → fate = if c.code = 1 then .new true else .refused 0x11))) ∧
    (∀ r, c.layoutOk = true → s.dev.classOf c.src = some r → (r.auth = true ∧ c.tag = none) →
      (j.source c.src ≠ none ∨ (c.code = 1 ∧ j.freeSlot ≠ none)) → fate = .refused 0x13) ∧
    (j.batches = [] → ∀ m14 m15, exec (.batchCommit m14 m15) s = .next s) ∧
    (j.batches ≠ [] → ¬idle → ∀ m14 m15, exec (.batchCommit m14 m15) s = .next { s with dev := u }) ∧
    (∀ path rest new, j.batches = { cmds := [c], path := path } :: rest → path = 0 → fate = .new new → j.mirror = 0 → free → clean →
      Gives s commit fun d => d.jnl.batches = rest ∧ d.jnl.mirror = 0 ∧
        (∃ x, d.jnl.source c.src = some x ∧ x.last = c.seq ∧ x.path = path ∧ x.idle = 0 ∧
          x.record c.seq = some { seq := c.seq, code := c.code, st := 0 }) ∧
        (∃ e, d.jnl.entries = j.entries ++ [e] ∧ e.src = c.src ∧ e.seq = c.seq ∧ e.code = c.code ∧ e.mask = c.mask ∧
          e.fresh = true ∧ e.frame = s.dev.get F.GEY_FCNT % 2 ^ 20) ∧
        d.get F.JNL_CNT_ACC = min (s.dev.get F.JNL_CNT_ACC + 1) (2 ^ 20 - 1) ∧ (new = true → d.ev 109 = true) ∧
        (j.fifo.length < 64 → d.jnl.fifo = j.fifo ++ [c.ack 0])) ∧
    (∀ path rest, j.batches = { cmds := [c], path := path } :: rest → path = 0 → fate = .dup → idle →
      Gives s commit fun d => d.jnl.batches = rest ∧ d.jnl.entries = j.entries ∧
        d.get F.JNL_CNT2_DUP = min (s.dev.get F.JNL_CNT2_DUP + 1) 65535 ∧
        (j.fifo.length < 64 → d.jnl.fifo = j.fifo ++ [c.ack (j.dupStatus c)])) ∧
    (∀ path rest new, j.batches = { cmds := [c], path := path } :: rest → fate = .new new → clean →
      (j.mirror = 3 → Gives s commit fun d => d.jnl.batches = rest ∧ refused d path 0x19) ∧
      (j.mirror = 0 → ¬free → Gives s commit fun d => d.jnl.batches = rest ∧ refused d path 0x12) ∧
      (j.mirror = 0 → Gives s (.batchCommit .failed .ok) fun d => d.jnl.mirror = 1 ∧ d.ev 110 = true) ∧
      (j.mirror = 0 → Gives s (.batchCommit .failed .failed) fun d => d.jnl.mirror = 3 ∧ d.ev 110 = true ∧ refused d path 0x19)) ∧
    (∀ (src : BitVec 8) i x, j.slotOf src.toNat = some i → uget j.sources i = some x →
      let old := s.dev.sys.sealed = true ∧ s.dev.get F.JNL_CFG_TIMEOUT ≤ x.idle ∧ j.busy src.toNat = false ∧
        ∀ b ∈ j.batches, ∀ y ∈ b.cmds, y.src ≠ src.toNat
      (old → Gives s (.sourceAgeOut src) fun d => uget d.jnl.sources i = none ∧ d.ev 109 = true ∧
        (∀ n, n ≠ i → uget d.jnl.sources n = uget j.sources n) ∧ s.dev.keepsRegs d [F.EVT_STAT.at_ 3]) ∧
      (¬old → exec (.sourceAgeOut src) s = .next s)) ∧
    (∀ src : BitVec 8, j.slotOf src.toNat = none → exec (.sourceAgeOut src) s = .next s)

/-! ### CAN FD (chapter 16) -/

/-- R337, R341 to R348, R356: a request makes an EMPTY or DONE buffer PENDING, or DONE with INVALID; a cancel makes a
PENDING or READY one DONE and is late for one under way; the controller offers the READY buffer that its order names and
sends the frame that its words and its error state make; an attempt that succeeds leaves DONE with OK and its stamp and
lowers TEC, one that loses arbitration or meets an error leaves READY again, or, where TEC exceeds 255, as it is for the
entry to bus-off; a measured transmitter delay is recorded either way. (What an error or an overload flag adds to TEC is ISO
11898-1's, PRESUMED in log entry 32. That the buffer stays ACTIVE and nothing is sent between the error that takes TEC above
255 and BUS_OFF is the model's choice, log entry 58.) -/
def Obligations.CanTransmit : Prop :=
  ∀ (s : State) (ctl : Fin 4) (mask : BitVec 3) (t : Nat) (fin : TxEnd),
    let c := ctl.val
    let up := s.dev.awake = true ∧ s.dev.sys.portUp = true
    let st := fun (d : Dev) (n : Nat) => d.get (txSt n) c
    let named := fun n : Nat => n < 3 ∧ mask.getLsbD n = true
    let reply := s.dev.flag F.CAN_CTL_RPLBUF c = true
    let w0 := fun n : Nat => s.dev.reg (F.TXB_ID0.at_ c + 16 * n)
    let bad := fun n : Nat => ((w0 n).getLsbD 31 = true ∧ (w0 n).getLsbD 30 = false) ∨
      ((w0 n).getLsbD 30 = true ∧ s.dev.flag F.CAN_CTL_FDEN c = false) ∨
      ((w0 n).getLsbD 29 = false ∧ (w0 n).extractLsb' 11 18 ≠ 0#18) ∨ s.dev.flag F.CAN_CTL_LISTEN c = true
    let mayReq := ∀ n, named n → ¬(n = 2 ∧ reply) ∧ (st s.dev n = 0 ∨ st s.dev n = 4)
    let mayCan := ∀ n, named n → ¬(n = 2 ∧ reply)
    let refused := fun d : Dev => s.dev.regsOnly d [F.HST_STAT.at_ 0] ∧ d.get F.HST_STAT_LSTAT = 1 ∧
      d.get F.HST_STAT_LADDR = F.CAN_TXREQ.at_ c
    (¬up → exec (.canTxreqReq ctl mask) s = .next s ∧ exec (.canTxreqCancel ctl mask) s = .next s) ∧
    (up → ¬mayReq → Gives s (.canTxreqReq ctl mask) refused) ∧
    (up → ¬mayCan → Gives s (.canTxreqCancel ctl mask) refused) ∧
    (up → mayReq → (s.dev.ctl c).txReply = false → Gives s (.canTxreqReq ctl mask) fun d =>
      d = { s.dev with regs := d.regs, can := d.can } ∧ s.dev.keepsRegs d [F.CAN_TXSTAT.at_ c, F.EVT_STAT.at_ 2] ∧
      (∀ x, x ≠ c → d.ctl x = s.dev.ctl x) ∧ d.ctl c = { s.dev.ctl c with reqAt := (d.ctl c).reqAt } ∧
      ∀ n, n < 3 → (mask.getLsbD n = false → d.get (txAll n) c = s.dev.get (txAll n) c) ∧
        (mask.getLsbD n = true → bad n → d.get (txAll n) c = 132 ∧ d.ev (66 + 4 * c) = true) ∧
        (mask.getLsbD n = true → ¬bad n → d.get (txAll n) c = 1 ∧ uget (d.ctl c).reqAt n = s.dev.clk.now)) ∧
    (up → mayCan → (s.dev.ctl c).txReply = false → Gives s (.canTxreqCancel ctl mask) fun d =>
      s.dev.regsOnly d [F.CAN_TXSTAT.at_ c, F.EVT_STAT.at_ 2] ∧
      ∀ n, n < 3 → (mask.getLsbD n = true → st s.dev n = 1 ∨ st s.dev n = 2 → d.get (txAll n) c = 68 ∧ d.ev (66 + 4 * c) = true) ∧
        (mask.getLsbD n = true → st s.dev n = 3 → st d n = 3 ∧ d.flag (txLate n) c = true) ∧
        (mask.getLsbD n = false ∨ st s.dev n = 0 ∨ st s.dev n = 4 → d.get (txAll n) c = s.dev.get (txAll n) c)) ∧
    (let a := s.dev.at_ t
     let ready := fun n : Nat => n < 3 ∧ st a n = 2
     let key := fun n : Nat => arbKey (a.reg (F.TXB_ID0.at_ c + 16 * n))
     let may := (a.ctl c).mode = .on ∧ a.get F.CAN_STAT_STATE c < 2 ∧ a.flag F.CAN_CTL_LISTEN c = false ∧
       a.get F.CAN_STAT_TEC c ≤ 255 ∧ (a.ctl c).halting = false ∧ ∀ n, n < 3 → st a n ≠ 3
     (¬may ∨ (∀ n, ¬ready n) → Gives s (.canTxStart ctl t) fun d => d = a) ∧
     (may → (∃ n, ready n) → Gives s (.canTxStart ctl t) fun d => ∃ n, ready n ∧
       (a.flag F.CAN_CTL_TXORD c = true → ∀ m, ready m → n ≤ m) ∧
       (a.flag F.CAN_CTL_TXORD c = false → ∀ m, ready m → key n < key m ∨ (key n = key m ∧ n ≤ m)) ∧
       d = { a with regs := d.regs, can := d.can } ∧ a.keepsRegs d [F.CAN_TXSTAT.at_ c] ∧ d.get (txAll n) c = 3 ∧
       (∀ m, m < 3 → m ≠ n → d.get (txAll m) c = a.get (txAll m) c) ∧ (∀ x, x ≠ c → d.ctl x = a.ctl x) ∧
       ∃ g : CanFrame, d.ctl c = { a.ctl c with sof := a.timeBase, sending := some g, rxBusy := false } ∧
         let w := fun i : Nat => a.reg (F.TXB_ID0.at_ c + 16 * n + i)
         g.id = (w 0).extractLsb' 0 29 ∧ g.xtd = (w 0).getLsbD 29 ∧ g.fdf = (w 0).getLsbD 30 ∧ g.brs = (w 0).getLsbD 31 ∧
         g.rtr = false ∧ g.esi = (g.fdf && decide (a.get F.CAN_STAT_STATE c = 1)) ∧ g.dlc = (w 1).extractLsb' 0 4 ∧
         g.data.length = dlcBytes g.fdf g.dlc.toNat ∧
         ∀ i, i < g.data.length → g.data.getD i 0 = (w (2 + i / 5)).extractLsb' (8 * (i % 5)) 8)) ∧
    (let tec := s.dev.get F.CAN_STAT_TEC c
     ((∀ n, n < 3 → st s.dev n ≠ 3) ∨ 255 < tec →
       exec (.canTxDone ctl fin) s = .next s ∧ ∀ why, exec (.canTxLost ctl why) s = .next s) ∧
     (∀ n, n < 3 → st s.dev n = 3 → (∀ m, m < n → st s.dev m ≠ 3) → n ≠ 2 ∨ ¬reply → tec ≤ 255 →
       let late := s.dev.get (txLate n) c
       let measures := (w0 n).getLsbD 30 = true ∧ (w0 n).getLsbD 31 = true ∧ s.dev.flag F.CAN_DBT_TDCEN c = true
       let delay := fun (d : Dev) (x : Option Nat) =>
         (∀ v, x = some v → measures → d.get F.CAN_STAT_TDCV c = min v 127 ∧
           (127 < v → d.flag F.CAN_CNT2_TDCSAT c = true ∧ d.ev (67 + 4 * c) = true)) ∧
         (x = none ∨ ¬measures → d.get F.CAN_STAT_TDCV c = s.dev.get F.CAN_STAT_TDCV c)
       (Gives s (.canTxDone ctl fin) fun d => d.get (txAll n) c = 12 + 16 * late ∧
         d.get F.CAN_STAT_TEC c = min (tec - 1 + 8 * fin.more) 511 ∧ (d.ctl c).sending = none ∧ delay d fin.tdcv ∧
         (∀ k, fin.kind = some k → d.get F.CAN_STAT_LEC c = k.val ∧ d.flag F.CAN_STAT_LECD c = false) ∧
         (fin.kind = none → d.get F.CAN_STAT_LEC c = s.dev.get F.CAN_STAT_LEC c) ∧
         d.reg (F.TXB_TS0.at_ c + 16 * n) = BitVec.ofNat 40 (s.dev.ctl c).sof ∧
         (n ≠ 2 ∨ (s.dev.ctl c).txReply = false → d.ev (66 + 4 * c) = true) ∧ d.engs = s.dev.engs ∧ d.vent = s.dev.vent) ∧
       (Gives s (.canTxLost ctl .arbitration) fun d => d.get F.CAN_STAT_TEC c = tec ∧ (d.ctl c).sending = none ∧
         (late = 0 → d.get (txAll n) c = 2) ∧ (late = 1 → d.get (txAll n) c = 20) ∧ d.engs = s.dev.engs ∧ d.vent = s.dev.vent) ∧
       (∀ e : TxError, Gives s (.canTxLost ctl (.error e)) fun d =>
         let free := e.exempt = true ∧ (e.kind.val = 1 ∨ (e.kind.val = 3 ∧ s.dev.get F.CAN_STAT_STATE c = 1))
         let t2 := min (tec + (if free then 0 else 8) + 8 * e.more) 511
         d.get F.CAN_STAT_TEC c = t2 ∧ (d.ctl c).sending = none ∧ delay d e.tdcv ∧
         (t2 ≤ 255 → late = 0 → d.get (txAll n) c = 2) ∧ (t2 ≤ 255 → late = 1 → d.get (txAll n) c = 20) ∧
         (255 < t2 → d.get (txAll n) c = s.dev.get (txAll n) c) ∧
         d.get F.CAN_STAT_LEC c = e.kind.val ∧ d.flag F.CAN_STAT_LECD c = e.dataPhase ∧
         (e.collision = true → d.get F.CAN_CNT_IDCOL c = min (s.dev.get F.CAN_CNT_IDCOL c + 1) 4095 ∧ d.ev (67 + 4 * c) = true) ∧
         d.engs = s.dev.engs ∧ d.vent = s.dev.vent)))

/-- R293 to R295, R320, R325, R337, R349 to R355, R371: a data frame goes to the store that the lowest matching filter
names, one that finds no room is counted, and an FD frame on a classical node is a form error; a read of a window leaves
its word in HST_LAST, locks its element, and word 15 releases it; the DMA requests a burst of 16 words, which writes the
oldest element into its ring once the bank serves it; the journal's parser joins the fragments of a transfer and discards
one that does not follow. (REC after a reception from above 127, and the 1 that a form error adds, are ISO 11898-1's, PRESUMED
in log entry 32; that CAN_DMA_WRITE says when its data have moved is the model's choice, log entry 12.) -/
def Obligations.CanReceive : Prop :=
  ∀ (s : State) (ctl : Fin 4) (f : CanFrame) (off : Fin 32) (ok : Bool),
    let c := ctl.val
    let u := s.dev.ctl c
    let up := s.dev.awake = true ∧ s.dev.sys.portUp = true
    let id := f.id.toNat
    let on := u.mode = .on ∧ s.dev.get F.CAN_STAT_STATE c < 2
    let taken := on ∧ (f.fdf = false ∨ s.dev.flag F.CAN_CTL_FDEN c = true)
    let rx : Instr := .canFrameRx ctl f
    let rec_ := s.dev.get F.CAN_STAT_REC c
    let counted := fun d : Dev => (rec_ ≤ 127 → d.get F.CAN_STAT_REC c = rec_ - 1) ∧
      (127 < rec_ → 119 ≤ d.get F.CAN_STAT_REC c ∧ d.get F.CAN_STAT_REC c ≤ 127) ∧ (∀ x, d.cal x = s.dev.cal x) ∧ d.engs = s.dev.engs
    let quiet := fun d : Dev => (d.ctl c).fifo = u.fifo ∧ (d.ctl c).prb = u.prb ∧ (d.ctl c).hold = u.hold ∧ (d.ctl c).cmdq = u.cmdq
    let hits := fun i : Nat => filterMatches (uget u.filters i) f = true
    (f.wf = false → exec rx s = .fault .illFormed) ∧
    (f.wf = true → ¬on → exec rx s = .next s) ∧
    (f.wf = true → on → ¬taken → Gives s rx fun d => quiet d ∧ d.get F.CAN_STAT_REC c = min (rec_ + 1) 255 ∧
      d.get F.CAN_STAT_LEC c = 2 ∧ d.con = s.dev.con ∧ d.engs = s.dev.engs) ∧
    (f.wf = true → taken → f.rtr = true → Gives s rx fun d => counted d ∧ quiet d ∧
      d.get F.CAN_CNT2_RMT c = min (s.dev.get F.CAN_CNT2_RMT c + 1) 4095) ∧
    (f.wf = true → taken → f.rtr = false → (∀ i, i < 64 → ¬hits i) → Gives s rx fun d => counted d ∧ quiet d) ∧
    (∀ i, f.wf = true → taken → f.rtr = false → i < 64 → hits i → (∀ j, j < i → ¬hits j) →
      let act := ((uget u.filters i).1.extractLsb' 30 3).toNat
      let e : CanElem := { frame := f, filter := i }
      let big := 8 * 2 ^ s.dev.get F.CAN_CTL_ESZ c < frameLen f
      (act = 1 → big → Gives s rx fun d => counted d ∧ quiet d ∧
        d.get F.CAN_CNT_OVS c = min (s.dev.get F.CAN_CNT_OVS c + 1) 4095 ∧ d.ev (67 + 4 * c) = true) ∧
      (act = 1 → ¬big → 32 ≤ u.fifo.length → Gives s rx fun d => counted d ∧ quiet d ∧
        d.get F.CAN_CNT_RXLOST c = min (s.dev.get F.CAN_CNT_RXLOST c + 1) 4095 ∧ d.ev (67 + 4 * c) = true) ∧
      (act = 1 → ¬big → u.fifo.length < 32 → Gives s rx fun d => counted d ∧ (d.ctl c).fifo = u.fifo ++ [e] ∧
        (s.dev.get F.CAN_CTL_WMK c ≤ u.fifo.length → d.ev (64 + 4 * c) = true)) ∧
      (act = 2 → s.dev.flag F.CAN_RXSTAT_LOCKP c = false → Gives s rx fun d => counted d ∧ (d.ctl c).prb = some e ∧
        d.ev (65 + 4 * c) = true ∧
        (u.prb ≠ none → d.get F.CAN_CNT2_PRBLOST c = min (s.dev.get F.CAN_CNT2_PRBLOST c + 1) 4095)) ∧
      (act = 2 → s.dev.flag F.CAN_RXSTAT_LOCKP c = true → Gives s rx fun d => counted d ∧ (d.ctl c).prb = u.prb ∧
        (d.ctl c).hold = some e) ∧
      (act = 3 → Gives s rx fun d => counted d ∧ (d.ctl c).cmdq = u.cmdq ++ [f]) ∧
      (act = 0 ∨ 3 < act → Gives s rx fun d => counted d ∧ quiet d)) ∧
    (let o := off.val
     let win : Instr := .canWindowRead ctl off
     let none_ := if o < 16 then u.prb = none else u.fifo = [] ∨ s.dev.flag F.CAN_DMA_EN c = true
     let last := F.HST_LAST.at_ 0
     (¬up → exec win s = .next s) ∧
     (up → none_ → Gives s win fun d => s.dev.regsOnly d [last] ∧ d.reg last = 0) ∧
     (up → ¬none_ → Gives s win fun d => d.reg last = s.dev.windowWord c o ∧
       (o < 15 → s.dev.regsOnly d [last, F.CAN_RXSTAT.at_ c] ∧ d.flag F.CAN_RXSTAT_LOCKP c = true) ∧
       (o = 15 → (d.ctl c).prb = u.hold ∧ (d.ctl c).hold = none ∧ d.flag F.CAN_RXSTAT_LOCKP c = false ∧
         (u.hold ≠ none → d.ev (65 + 4 * c) = true)) ∧
       (16 ≤ o → o < 31 → s.dev.regsOnly d [last, F.CAN_RXSTAT.at_ c] ∧ d.flag F.CAN_RXSTAT_LOCKF c = true) ∧
       (o = 31 → (d.ctl c).fifo = u.fifo.drop 1 ∧ d.flag F.CAN_RXSTAT_LOCKF c = false))) ∧
    (let dma : Instr := .canDmaWrite ctl ok
     let slots := s.dev.get F.CAN_DMA_SLOTS c + 1
     let wr := s.dev.get F.CAN_DMAP_WR c
     let next := (wr + 1) % slots
     let ring := s.dev.get F.CAN_DMA_BASE c + 16 * wr
     let b := bankOf ring
     let q := 13 + c
     let runs := s.dev.awake = true ∧ s.dev.sys.sealed = true ∧ s.dev.flag F.CAN_DMA_EN c = true ∧ u.dmaStop = false ∧
       u.fifo ≠ [] ∧ next ≠ s.dev.get F.CAN_DMAP_RD c
     let may := s.dev.dmaMay c b = true
     let asked := s.dev.requestOf b q ≠ none
     let D := s.dev.dmaRequest c
     let failed := fun d : Dev => (d.ctl c).dmaStop = true ∧ (d.ctl c).fifo = u.fifo ∧ d.flag F.CAN_CNT2_DMAERR c = true ∧
       d.ev (67 + 4 * c) = true ∧ (∀ x, d.cal x = s.dev.cal x)
     (¬runs → ¬asked → exec dma s = .next s) ∧
     (runs → ¬asked → ¬may → Gives s dma fun d => failed d ∧ d.ev 107 = true ∧
       d.get F.CON_CNT_DENY = min (s.dev.get F.CON_CNT_DENY + 1) 65535) ∧
     (asked → D = s.dev) ∧
     (runs → ¬asked → may → ∃ at_, D.requestOf b q = some { req := q, since := s.dev.clk.now, addr := ring, kind := .bulk 16, at_ := at_ }) ∧
     (asked ∨ (runs ∧ may) → ok = false → Gives s dma failed) ∧
     (ok = true → (D.granted b fun r => r.req == q).2 = none ∨ u.fifo = [] → Gives s dma fun d => d = D) ∧
     (∀ x r e rest, ok = true → (D.granted b fun r => r.req == q) = (x, some r) → u.fifo = e :: rest →
       let B := x.burstEnds b r
       Gives s dma fun d => (d.ctl c).fifo = rest ∧ d.get F.CAN_DMAP_WR c = next ∧ (∀ i, i < 16 → d.cal (ring + i) = e.word i) ∧
         (∀ x, x < ring ∨ ring + 16 ≤ x → d.cal x = B.cal x) ∧ d.clk = B.clk ∧
         B.keepsRegs d [F.CAN_DMAP.at_ c, F.EVT_STAT.at_ 2, F.EVT_STAT.at_ 3, F.CON_CNT.at_ 0, F.CAN_CNT2.at_ c])) ∧
    (let take : Instr := .commandFrameTaken ctl
     let src := id % 256
     let frag := id / 2 ^ 8 % 16
     let bytes := f.data.take (frameLen f)
     let mine := f.xtd = true ∧ id / 2 ^ 21 % 32 = 0x10 ∧ id / 2 ^ 13 % 256 = s.dev.get F.JNL_CFG_NODE
     let had := fun t : Transfer => t.src == src && t.ctl == c
     (u.cmdq = [] → exec take s = .next s) ∧
     (∀ rest, u.cmdq = f :: rest → ¬mine → Gives s take fun d => (d.ctl c).cmdq = rest ∧ d.jnl = s.dev.jnl ∧ d.regs = s.dev.regs) ∧
     (∀ rest, u.cmdq = f :: rest → mine → frag = 0 → id.testBit 12 = false → s.dev.jnl.transfers.any had = false →
       Gives s take fun d => (d.ctl c).cmdq = rest ∧ d.regs = s.dev.regs ∧ d.jnl = { s.dev.jnl with
         transfers := s.dev.jnl.transfers ++ [{ src := src, ctl := c, frag := 1, bytes := bytes, ticks := 0 }] }) ∧
     (∀ rest x, u.cmdq = f :: rest → mine → frag ≠ 0 → frag ≠ 15 → id.testBit 12 = false → s.dev.jnl.transfers = [x] → had x = true →
       (x.frag = frag → Gives s take fun d => d.regs = s.dev.regs ∧
         d.jnl.transfers = [{ src := src, ctl := c, frag := frag + 1, bytes := x.bytes ++ bytes, ticks := x.ticks }]) ∧
       (x.frag ≠ frag → Gives s take fun d => d.jnl.transfers = [] ∧ d.ev 111 = true ∧
         d.get F.JNL_CNT2_DISC = min (s.dev.get F.JNL_CNT2_DISC + 1) 65535)) ∧
     (∀ rest, u.cmdq = f :: rest → mine → frag = 0 → id.testBit 12 = true → s.dev.jnl.transfers = [] → s.dev.sys.sealed = true →
       bytes.length < 2 → Gives s take fun d => d.get F.JNL_RLAST_STATUS = 0x14 ∧ d.get F.JNL_RLAST_SOURCE = src ∧ d.ev 108 = true ∧
         d.jnl.entries = s.dev.jnl.entries ∧ d.jnl.batches = s.dev.jnl.batches) ∧
     (∀ x : BitVec 8, (s.dev.jnl.transfers.any fun t => t.src == x.toNat && t.ctl == c && decide (8 ≤ t.ticks)) = true →
       Gives s (.transferTimeout ctl x) fun d => d.ev 111 = true ∧
         d.get F.JNL_CNT2_DISC = min (s.dev.get F.JNL_CNT2_DISC + 1) 65535 ∧
         d.jnl.transfers = s.dev.jnl.transfers.filter fun t => !(t.src == x.toNat && t.ctl == c)) ∧
     (∀ x : BitVec 8, (∀ t ∈ s.dev.jnl.transfers, ¬(t.src = x.toNat ∧ t.ctl = c ∧ 8 ≤ t.ticks)) →
       exec (.transferTimeout ctl x) s = .next s))

/-- R338, R346, R356 to R358, R361: integration puts a controller on the bus with its counters kept; a receive error
raises REC and the state follows the counters; bus-off ends every buffer with BOFF, discards the replies and takes the
controller off the bus, and C3 recovers by itself; a recovery counts its sequences and clears the counters at its end; HALT
takes a controller off the bus, at the end of the frame under way. (What an error frame adds to REC is ISO 11898-1's, log
entry 32; RECCNT at 127 and 128, the warning event when the counters are cleared and HALT in bus-off are the model's
choices, log entry 58.) -/
def Obligations.CanFaultConfinement : Prop :=
  ∀ (s : State) (ctl : Fin 4) (inc : RxIncrement) (kind : Fin 8) (dataPhase : Bool),
    let c := ctl.val
    let u := s.dev.ctl c
    let up := s.dev.awake = true ∧ s.dev.sys.portUp = true
    let st := fun d : Dev => d.get F.CAN_STAT_STATE c
    let tec := s.dev.get F.CAN_STAT_TEC c
    let rec_ := s.dev.get F.CAN_STAT_REC c
    let on := u.mode = .on ∧ st s.dev < 2
    let err : Instr := .canReceiveError ctl inc kind dataPhase
    let bufs := fun (d : Dev) (n : Nat) => d.get (txAll n) c
    let leaves := u.halting = true ∧ tec ≤ 255
    let gone := fun d : Dev => (d.ctl c).replies = [] ∧ (d.ctl c).sending = none ∧ (d.ctl c).halting = false ∧
      d.ev (67 + 4 * c) = true ∧ (∀ t ∈ d.jnl.transfers, t.ctl ≠ c) ∧
      (∀ n, n < 3 → (s.dev.get (txSt n) c ≠ 0 → s.dev.get (txSt n) c ≠ 4 → bufs d n = (36 + 16 * s.dev.get (txLate n) c)) ∧
        (s.dev.get (txSt n) c = 0 ∨ s.dev.get (txSt n) c = 4 → bufs d n = bufs s.dev n)) ∧
      (c = 3 → st d = 2 ∧ (d.ctl c).mode = .recovering ∧ d.flag F.CAN_STAT_RECOV c = true ∧ d.get F.CAN_STAT_RECCNT c = 0) ∧
      (c ≠ 3 → s.dev.flag F.CAN_CTL_HALT c = false → st d = 2 ∧ (d.ctl c).mode = .on ∧
        d.flag F.CAN_STAT_RECOV c = s.dev.flag F.CAN_STAT_RECOV c) ∧
      (c ≠ 3 → s.dev.flag F.CAN_CTL_HALT c = true → st d = 3 ∧ (d.ctl c).mode = .off)
    (u.mode ≠ .integrating → u.mode ≠ .recovering → exec (.canBusIntegration ctl) s = .next s) ∧
    (u.mode = .recovering → Gives s (.canBusIntegration ctl) fun d => s.dev.regsOnly d [F.CAN_STAT.at_ c] ∧
      d.get F.CAN_STAT_RECCNT c = min 127 (s.dev.get F.CAN_STAT_RECCNT c + 1) ∧ d.get F.CAN_STAT_TEC c = tec ∧
      d.get F.CAN_STAT_REC c = rec_ ∧ st d = st s.dev) ∧
    (u.mode = .integrating → tec ≤ 255 → Gives s (.canBusIntegration ctl) fun d => (d.ctl c).mode = .on ∧
      d.get F.CAN_STAT_TEC c = tec ∧ d.get F.CAN_STAT_REC c = rec_ ∧ st d = (if 127 < tec ∨ 127 < rec_ then 1 else 0) ∧
      (d.flag F.CAN_STAT_EWARN c = true ↔ 96 ≤ tec ∨ 96 ≤ rec_) ∧ s.dev.keepsRegs d [F.CAN_STAT.at_ c, F.EVT_STAT.at_ 2]) ∧
    (u.mode = .integrating → 255 < tec → st s.dev ≠ 2 → Gives s (.canBusIntegration ctl) gone) ∧
    (¬on → exec err s = .next s) ∧
    (on → Gives s err fun d =>
      let r := min (rec_ + (if inc.first then 1 else 0) + 8 * inc.more) 255
      d = { s.dev with regs := d.regs, can := d.can } ∧ s.dev.keepsRegs d [F.CAN_STAT.at_ c, F.EVT_STAT.at_ 2] ∧
      d.get F.CAN_STAT_REC c = r ∧ d.get F.CAN_STAT_TEC c = tec ∧
      d.get F.CAN_STAT_LEC c = kind.val ∧ d.flag F.CAN_STAT_LECD c = dataPhase ∧
      (d.flag F.CAN_STAT_EWARN c = true ↔ 96 ≤ tec ∨ 96 ≤ r) ∧
      (d.flag F.CAN_STAT_EWARN c ≠ s.dev.flag F.CAN_STAT_EWARN c ∨ st d ≠ st s.dev → d.ev (67 + 4 * c) = true) ∧
      (¬leaves → st d = (if 127 < tec ∨ 127 < r then 1 else 0) ∧ d.ctl c = { u with rxBusy := false }) ∧
      (leaves → st d = 3 ∧ d.ctl c = { u with rxBusy := false, halting := false, mode := .off })) ∧
    (¬(on ∧ 255 < tec) → exec (.busOff ctl) s = .next s) ∧
    (on → 255 < tec → Gives s (.busOff ctl) gone) ∧
    (u.mode ≠ .recovering → exec (.busOffRecoveryDone ctl) s = .next s) ∧
    (u.mode = .recovering → Gives s (.busOffRecoveryDone ctl) fun d => (d.ctl c).mode = .on ∧ st d = 0 ∧
      d.get F.CAN_STAT_RECCNT c = 128 ∧ d.get F.CAN_STAT_TEC c = 0 ∧ d.get F.CAN_STAT_REC c = 0 ∧ d.flag F.CAN_STAT_RECOV c = false ∧
      d.flag F.CAN_STAT_EWARN c = false ∧ s.dev.keepsRegs d [F.CAN_STAT.at_ c, F.EVT_STAT.at_ 2]) ∧
    (¬up → exec (.borec ctl) s = .next s ∧ ∀ w, exec (.haltController ctl w) s = .next s) ∧
    (up → c = 3 ∨ st s.dev ≠ 2 → Gives s (.borec ctl) fun d => s.dev.regsOnly d [F.HST_STAT.at_ 0] ∧
      d.get F.HST_STAT_LSTAT = 1 ∧ d.get F.HST_STAT_LADDR = F.CAN_CTL.at_ c) ∧
    (up → c ≠ 3 → st s.dev = 2 → s.dev.flag F.CAN_STAT_RECOV c = true → exec (.borec ctl) s = .next s) ∧
    (up → c ≠ 3 → st s.dev = 2 → s.dev.flag F.CAN_STAT_RECOV c = false → Gives s (.borec ctl) fun d =>
      (d.ctl c).mode = .recovering ∧ d.flag F.CAN_STAT_RECOV c = true ∧ d.get F.CAN_STAT_RECCNT c = 0 ∧
      s.dev.keepsRegs d [F.CAN_STAT.at_ c]) ∧
    (c = 3 → ∀ w, exec (.haltController ctl w) s = .next s) ∧
    (∀ busy : Bool, up → c ≠ 3 → Gives s (.haltController ctl ⟨true, busy⟩) fun d =>
      let runs := (∃ n, n < 3 ∧ s.dev.get (txSt n) c = 3) ∨ (on ∧ (busy = true ∨ u.rxBusy = true))
      d.flag F.CAN_CTL_HALT c = true ∧ s.dev.keepsRegs d [F.CAN_CTL.at_ c, F.CAN_STAT.at_ c, F.EVT_STAT.at_ 2] ∧
      (u.mode = .off ∨ u.mode = .waitTick → d.can = s.dev.can) ∧
      (u.mode ≠ .off → u.mode ≠ .waitTick → runs → d.ctl c = { u with halting := true, rxBusy := busy || u.rxBusy } ∧ st d = st s.dev) ∧
      (u.mode ≠ .off → u.mode ≠ .waitTick → ¬runs → (d.ctl c).mode = .off ∧ st d = 3)) ∧
    (∀ busy : Bool, up → c ≠ 3 → Gives s (.haltController ctl ⟨false, busy⟩) fun d =>
      let resumes := u.mode = .off ∧ s.dev.sys.sealed = true ∧ s.dev.clk.ticked = true ∧ s.dev.flag F.CAN_CTL_EN c = true
      d.flag F.CAN_CTL_HALT c = false ∧ (d.ctl c).halting = false ∧ (resumes → (d.ctl c).mode = .integrating) ∧
      (¬resumes → s.dev.keepsRegs d [F.CAN_CTL.at_ c] ∧ d.ctl c = { u with halting := false }))

/-! ### The warden, Sinter, Caldera and the test access port (chapters 15, 18 and 21) -/

/-- R385, R386, R389, R395 to R401, R406: a service is refused while one is BUSY, waits while the warden's own advance
runs, answers at once with its RESULT where a check fails or it only reads, and otherwise starts its first pulse with the
words that the service programs. (What REVOKE programs and whether a patch verifies are free values, log entries 28 and
27. The order of the checks and what argument and result registers keep, log entry 61, VERIFY for a ROLL_ADV that finds no bit
left, log entry 36, and ENG_STAT cleared but for DECC, log entry 70, are the model's choices.) -/
def Obligations.MailboxServices : Prop :=
  ∀ (s : State),
    let o := s.otp
    let a := fun i : Nat => (s.dev.reg (F.WDN_MBARG.at_ i)).toNat
    let n := a 0
    let blank := fun x : Nat => s.dev.wordState o x = .blank
    let locked := fun r : Nat => s.dev.bit F.SNT_LOCK_LOCK 0 r = true
    let digest := 0x100 ≤ n ∧ n < 0x180 ∧ n % 0x20 < 8
    let customer := 0x200 ≤ n ∧ n < 0x380
    let keyWord := 0x180 ≤ n ∧ n < 0x1D0 ∧ (n - 0x180) % 5 < 4
    let roll := 0x380 ≤ n ∧ n < 0x3C0
    let force := n.testBit 8 = true
    let up := s.dev.awake = true ∧ s.dev.sys.portUp = true
    let free := up ∧ s.dev.get F.WDN_MBSTAT_STATE ≠ 1 ∧ s.dev.wdn.svc = none
    let ends := fun (c : Instr) (code res : Nat) (p : Word → Word → Prop) => Gives s c fun d =>
      d.get F.WDN_MBSTAT_STATE = 2 ∧ d.get F.WDN_MBSTAT_RESULT = res ∧ d.get F.WDN_MBSTAT_CODE = code ∧ d.ev 122 = true ∧
      p (d.reg (F.WDN_MBRES.at_ 0)) (d.reg (F.WDN_MBRES.at_ 1)) ∧ d.wdn = s.dev.wdn ∧ d.engs = s.dev.engs ∧
      ∀ x, x ≠ F.WDN_MBCMD.at_ 0 → x ≠ F.WDN_MBSTAT.at_ 0 → (∀ i, i < 4 → x ≠ F.WDN_MBRES.at_ i) → x ≠ F.EVT_STAT.at_ 3 →
        x ≠ F.WDN_STAT.at_ 0 → d.reg x = s.dev.reg x
    let fails := fun (c : Instr) (code res : Nat) => ends c code res fun r0 r1 => r0 = 0 ∧ r1 = 0
    let starts := fun (c : Instr) (code : Nat) (p : Svc → Prop) =>
      (s.dev.flag F.SNT_STAT_WINOK = false → fails c code 0x05) ∧
      (s.dev.flag F.SNT_STAT_WINOK = true → Gives s c fun d => d.get F.WDN_MBSTAT_STATE = 1 ∧ d.flag F.SNT_STAT_PROG = true ∧
        (∃ v, d.wdn.svc = some v ∧ v.code = code ∧ v.words = 0 ∧ v.stop = 0 ∧ v.own = false ∧ p v) ∧
        s.dev.keepsRegs d [F.WDN_MBCMD.at_ 0, F.WDN_MBSTAT.at_ 0, F.SNT_STAT.at_ 0])
    let words := fun l : List (Nat × Word) => fun v : Svc => v.todo = l ∧ v.roll = none
    (∀ p ∈ [(Instr.otpRead, 2), (.otpProg, 3), (.keyProg, 4), (.revoke, 5), (.lock, 6), (.rollAdv, 7), (.patch, 8), (.engReset, 9)],
      (¬up → exec p.1 s = .next s) ∧
      (up → s.dev.get F.WDN_MBSTAT_STATE = 1 → Gives s p.1 fun d => s.dev.regsOnly d [F.HST_STAT.at_ 0] ∧
        d.get F.HST_STAT_LSTAT = 1 ∧ d.get F.HST_STAT_LADDR = F.WDN_MBCMD.at_ 0) ∧
      (up → s.dev.get F.WDN_MBSTAT_STATE ≠ 1 → s.dev.wdn.svc ≠ none → Gives s p.1 fun d =>
        d.wdn = { s.dev.wdn with waiting := some p.2 } ∧ d.get F.WDN_MBSTAT_STATE = 1 ∧ d.get F.WDN_MBCMD_CODE = p.2 ∧
        s.dev.keepsRegs d [F.WDN_MBCMD.at_ 0, F.WDN_MBSTAT.at_ 0])) ∧
    (free →
      (1024 ≤ n → fails .otpRead 2 0x02 ∧ fails .otpProg 3 0x02) ∧
      (n < 1024 → keyWord → fails .otpRead 2 0x0C) ∧
      (n < 1024 → ¬keyWord → ¬roll →
        (s.dev.wordState o n = .good → ends .otpRead 2 0 fun r0 r1 => r0 = (otpWord o n).getD 0 ∧ r1 = 0) ∧
        (blank n → ends .otpRead 2 0 fun r0 r1 => r0 = 0 ∧ r1 = if customer ∧ locked 3 then 3 else 1) ∧
        (s.dev.wordState o n = .marginal → ends .otpRead 2 0 fun r0 r1 => r1 = 2 ∧ (customer → r0 = 0))) ∧
      (roll → ends .otpRead 2 0 fun r0 _ => r0 = s.dev.rollWord o n) ∧
      (n < 1024 → ¬digest → ¬customer → fails .otpProg 3 0x0C) ∧
      (n < 1024 → digest ∨ customer →
        (locked 4 ∨ (digest ∧ locked 1) ∨ (customer ∧ locked 3) → fails .otpProg 3 0x03) ∧
        (¬locked 4 → ¬(digest ∧ locked 1) → ¬(customer ∧ locked 3) →
          (¬blank n → fails .otpProg 3 0x04) ∧
          (blank n → starts .otpProg 3 (words [(n, BitVec.ofNat 40 (a 1))]))))) ∧
    (free →
      (let bad := 16 ≤ n ∨ ∃ i, 1 ≤ i ∧ i ≤ 4 ∧ 2 ^ 32 ≤ a i
       (bad → fails .keyProg 4 0x02) ∧
       (¬bad → locked 2 ∨ locked 4 → fails .keyProg 4 0x03) ∧
       (¬bad → ¬locked 2 → ¬locked 4 →
         ((∃ i, i < 5 ∧ ¬blank (0x180 + 5 * n + i)) → fails .keyProg 4 0x04) ∧
         ((∀ i, i < 5 → blank (0x180 + 5 * n + i)) → starts .keyProg 4 fun v => v.roll = none ∧
           v.todo.map Prod.fst = (List.range 5).map fun i => 0x180 + 5 * n + i)))) ∧
    (free →
      (let key := n.testBit 0 = true
       let i := n / 2 % 16
       let rev := if n.testBit 0 then 0x1D0 + i else 0x108 + 0x20 * i
       let bad := n ≠ n % 32 + (if n.testBit 8 then 256 else 0) ∨ (¬key ∧ 4 ≤ i)
       (bad → fails .revoke 5 0x02) ∧ (¬bad → ¬blank rev → fails .revoke 5 0x04) ∧
       (¬bad → blank rev → ¬force → ¬key → s.dev.revokeHurts o i = true → fails .revoke 5 0x09) ∧
       (¬bad → blank rev → force ∨ key ∨ s.dev.revokeHurts o i = false → starts .revoke 5 fun v => v.todo.map Prod.fst = [rev])) ∧
      (let r := n % 8
       let bad := n ≠ r + (if n.testBit 8 then 256 else 0) ∨ 4 < r
       let copies := [0x3C0 + r, 0x3D5 + r, 0x3EA + r]
       (bad → fails .lock 6 0x02) ∧ (¬bad → r = 0 → fails .lock 6 0x0C) ∧
       (¬bad → r ≠ 0 → locked 4 → fails .lock 6 0x03) ∧
       (¬bad → r ≠ 0 → ¬locked 4 → (∃ x ∈ copies, ¬blank x) → fails .lock 6 0x04) ∧
       (¬bad → r ≠ 0 → ¬locked 4 → (∀ x ∈ copies, blank x) →
         (¬force → s.dev.lockHurts o r = true → fails .lock 6 0x09) ∧
         (force ∨ s.dev.lockHurts o r = false → starts .lock 6
           (words (copies.map fun x => (x, BitVec.ofNat 40 (0x4C4F434B00 + r)))))))) ∧
    (free →
      (let t := n % 2048
       let v := s.dev.rollbackValue o (if n.testBit 11 then 0x3A0 else 0x380)
       (4096 ≤ n ∨ 1280 < t → fails .rollAdv 7 0x02) ∧
       (n < 4096 → t ≤ 1280 → t ≤ v → ends .rollAdv 7 0 fun r0 _ => r0 = BitVec.ofNat 40 v) ∧
       let base := if n.testBit 11 then 0x3A0 else 0x380
       let unset := fun b => (s.dev.rollWord o (base + b / 40)).getLsbD (b % 40) = false
       (n < 4096 → t ≤ 1280 → v < t → (∃ b, b < 1280 ∧ v ≤ b ∧ unset b) → starts .rollAdv 7 fun x => ∃ r, x.roll = some r ∧
         r.base = base ∧ r.left = t - v ∧ v ≤ r.bit ∧ r.bit < 1280 ∧ unset r.bit ∧ ∀ b, b < r.bit → v ≤ b → ¬unset b) ∧
       (n < 4096 → t ≤ 1280 → v < t → (∀ b, b < 1280 → v ≤ b → ¬unset b) → s.dev.flag F.SNT_STAT_WINOK = true →
         ends .rollAdv 7 0x07 fun r0 _ => r0 = 0)) ∧
      (32 ≤ n ∨ 2 ^ 18 ≤ a 1 → fails .patch 8 0x02) ∧
      (n < 32 → a 1 < 2 ^ 18 → locked 4 → fails .patch 8 0x03) ∧
      (n < 32 → a 1 < 2 ^ 18 → ¬locked 4 → (∃ i, i < 8 ∧ s.dev.wordState o (0xE8 + i) ≠ .good) → fails .patch 8 0x0A) ∧
      (n < 32 → a 1 < 2 ^ 18 → ¬locked 4 → (∀ i, i < 8 → s.dev.wordState o (0xE8 + i) = .good) →
        ∃ res, res ∈ [0x00, 0x0A, 0x0B] ∧ ends .patch 8 res fun _ _ => True) ∧
      (10 ≤ n → fails .engReset 9 0x02) ∧ (n < 10 → s.dev.resetBarred n = true → fails .engReset 9 0x0E) ∧
      (n < 10 → s.dev.resetBarred n = false → s.dev.gey.late = 0 → Gives s .engReset fun d =>
        d.get F.WDN_MBSTAT_STATE = 2 ∧ d.get F.WDN_MBSTAT_RESULT = 0 ∧ d.get F.WDN_MBSTAT_CODE = 9 ∧ d.ev 122 = true ∧
        (d.run n).live = false ∧ (d.run n).w = [] ∧ (d.run n).pc = 0 ∧ (d.eng n).dmem = (s.dev.eng n).dmem ∧
        (d.eng n).burst = none ∧ d.reg (F.ENG_STAT.at_ n) = (s.dev.reg (F.ENG_STAT.at_ n) &&& 0x800#40) ∧
        d.get F.ENG_OVR_CONSEC n = 0))

/-- R384, R389, R398 to R400, R403: when a pulse ends, a word that verifies is programmed and the service goes on,
completes, or ends for the reason that stands; one that does not is spent and ends the service with VERIFY; a counter's
bit is set or passed over. Nothing that was programmed is lost, and a reset that waited for the pulse is taken. An abort
acts at the word boundary, or is late; so does the window's end. (That a service which waits can be aborted, and that the
warden's own advance does not show in the mailbox, an abort then being late, are the model's choices, log entry 70.) -/
def Obligations.Programming : Prop :=
  ∀ (s : State) (ok vio tj : Bool),
    let c : Instr := .otpWordProgrammed ok
    let svc := s.dev.wdn.svc
    let finishes := fun (d : Dev) (v : Svc) (res words : Nat) =>
      (s.dev.wdn.advWaits = false → d.wdn.svc = none ∧ d.flag F.SNT_STAT_PROG = false) ∧ d.wdn.advWaits = false ∧
      d.get F.WDN_MBSTAT_STATE = 2 ∧ d.get F.WDN_MBSTAT_RESULT = res % 256 ∧ d.get F.WDN_MBSTAT_CODE = v.code % 256 ∧
      d.get F.WDN_MBSTAT_WORDS = words % 65536 ∧ d.ev 122 = true
    (svc = none ∨ s.dev.awake = false → exec c s = .next s) ∧
    (∀ v n, svc = some v → s.dev.awake = true → s.dev.sys.held = some n → n < 6 → ∃ d o,
      exec c s = .next { s with dev := d, otp := o } ∧ otpGrows (otpWord s.otp) (otpWord o) ∧ d.awake = false ∧
      d.wdn.svc = none ∧ d.get F.DIE_RSTC_CAUSE = n) ∧
    (∀ v, svc = some v → s.dev.awake = true → s.dev.sys.held = none → ∃ d o, exec c s = .next { s with dev := d, otp := o } ∧ otpGrows (otpWord s.otp) (otpWord o) ∧
      d.vent = s.dev.vent ∧ (v.own = false → d.engs = s.dev.engs) ∧
      (∀ a w rest, v.roll = none → v.todo = (a, w) :: rest →
        (∀ x, x ≠ a → otpWord o x = otpWord s.otp x) ∧ (otpWord o a).isSome = true ∧
        (ok = true → otpWord o a = some w ∧
          (rest ≠ [] → v.stop = 0 → d.wdn.svc = some { v with todo := rest, words := v.words + 1 }) ∧
          (rest ≠ [] → v.stop ≠ 0 → v.own = false → finishes d v v.stop (v.words + 1)) ∧
          (rest = [] → v.own = false → finishes d v 0 (v.words + 1) ∧
            (v.code = 3 → a = (s.dev.reg (F.WDN_MBARG.at_ 0)).toNat → d.reg (F.WDN_MBRES.at_ 0) = w))) ∧
        (ok = false → v.own = false → finishes d v 0x07 v.words ∧ d.reg (F.WDN_MBRES.at_ 1) = BitVec.ofNat 40 a ∧ d.ev 120 = true ∧
          a ∈ d.wdn.marginal)) ∧
      (∀ r, v.roll = some r →
        let a := r.base + r.bit / 40
        (∀ x, x ≠ a → otpWord o x = otpWord s.otp x) ∧ (ok = false → o = s.otp) ∧
        (ok = true → ∃ w, otpWord o a = some w ∧ w.getLsbD (r.bit % 40) = true ∧
          ∀ i, i < 40 → i ≠ r.bit % 40 → w.getLsbD i = ((otpWord s.otp a).getD 0).getLsbD i) ∧
        (ok = true → r.left = 1 → v.own = false → (s.dev.wdn.advWaits = false → d.wdn.svc = none) ∧
          d.get F.WDN_MBSTAT_RESULT = 0 ∧ d.ev 122 = true) ∧
        (ok = true → r.left = 1 → v.own = true → s.dev.wdn.waiting = none → d.wdn.svc = none ∧
          d.flag F.SYS_IMGSTAT_ADV_PENDING = false))) ∧
    (s.dev.wardenUp = false → exec .mailboxAbort s = .next s) ∧
    (s.dev.awake = false → exec (.programmingWindowChange vio tj) s = .next s) ∧
    (s.dev.wardenUp = true →
      (s.dev.wdn.waiting = none → (∀ v, svc = some v → v.own = true) → Gives s .mailboxAbort fun d =>
        s.dev.regsOnly d [F.WDN_MBSTAT.at_ 0] ∧ d.flag F.WDN_MBSTAT_ABTLATE = true) ∧
      (∀ v, s.dev.wdn.waiting = none → svc = some v → v.own = false → Gives s .mailboxAbort fun d => d.regs = s.dev.regs ∧
        d.wdn = { s.dev.wdn with svc := some { v with stop := if v.stop = 0 then 0x0D else v.stop } }) ∧
      (∀ n, s.dev.wdn.waiting = some n → 3 ≤ n → n ≤ 7 → Gives s .mailboxAbort fun d => d.wdn = { s.dev.wdn with waiting := none } ∧
        d.get F.WDN_MBSTAT_STATE = 2 ∧ d.get F.WDN_MBSTAT_RESULT = 0x0D ∧ d.get F.WDN_MBSTAT_CODE = n ∧ d.ev 122 = true) ∧
      (∀ n, s.dev.wdn.waiting = some n → n < 3 ∨ 7 < n → Gives s .mailboxAbort fun d =>
        s.dev.regsOnly d [F.WDN_MBSTAT.at_ 0] ∧ d.flag F.WDN_MBSTAT_ABTLATE = true)) ∧
    (s.dev.awake = true → Gives s (.programmingWindowChange vio tj) fun d =>
      let inside := tj && s.dev.flag F.THM_STAT_VALID
      s.dev.keepsRegs d [F.SNT_STAT.at_ 0, F.EVT_STAT.at_ 3] ∧ d.flag F.SNT_STAT_VIOOK = vio ∧ d.flag F.SNT_STAT_TJOK = inside ∧
      d.flag F.SNT_STAT_WINOK = (vio && inside) ∧ (s.dev.flag F.SNT_STAT_WINOK ≠ (vio && inside) → d.ev 121 = true) ∧
      ((vio && inside) = true → d.wdn = s.dev.wdn) ∧
      (∀ v, (vio && inside) = false → svc = some v → v.stop = 0 → d.wdn.svc = some { v with stop := 0x05 }))

/-- R319, R329 to R333, R335, R395, R405: lock bits are only ever set, and one that bars the service under way ends it; an
event routed to the warden stops its axes, blocks their arming and is cleared; a grant that is cut off at HOLDMAX is
recorded, a far access, a window access or a DMA burst ends with an error tag, a checkpoint burst ends and a reservation
writes nothing; a reservation that holds its banks applies its staged writes in order at its release; a word that was
corrected is written back. (That what the journal had staged is written again, log entry 31, and that a checkpoint burst asks
for its words one by one, log entry 48, are the model's choices. `B` is the device at the end of the hold limit.) -/
def Obligations.WardenAndReservations : Prop :=
  ∀ (s : State) (bits : BitVec 5) (ev : Fin 128) (q : Fin 17) (bank : Fin 16),
    let old := s.dev.get F.SNT_LOCK_LOCK
    let n := ev.val
    let routed := s.dev.wardenUp = true ∧ s.dev.bit F.EVT_WRT (n / 32) (n % 32) = true ∧ s.dev.ev n = true
    let axes := if n < 64 then [n / 8] else (List.range 8).filter fun k => s.dev.bit F.WDN_ESCMASK_AXES 0 k
    let held := s.dev.resvOf q
    let cut : Instr := .holdCutoff q
    let up := s.dev.awake = true ∧ s.dev.sys.portUp = true
    let holdEnd := fun (x : Dev) (b t : Nat) => (x.setBusy b t (t + x.get F.CON_HOLD_HOLDMAX)).toCycle (t + x.get F.CON_HOLD_HOLDMAX)
    let own := fun r : Req => r.req == q.val
    let leaves := fun (B d : Dev) (b : Nat) (r : Req) => (∀ y ∈ B.queue b, y.req = q.val → y = r) → ∀ y ∈ d.queue b, y.req ≠ q.val
    let recorded := fun (B d : Dev) => d.bit F.CON_CUTOFF_REQ 0 q = true ∧ d.get F.CON_CUTOFF_LAST = q ∧
      d.get F.CON_CUTOFF_COUNT = min (B.get F.CON_CUTOFF_COUNT + 1) 65535 ∧ d.ev 104 = true ∧ ∀ x, d.cal x = B.cal x
    (¬up → exec (.sntLockSet bits) s = .next s) ∧
    (up → Gives s (.sntLockSet bits) fun d => s.dev.keepsRegs d [F.SNT_LOCK.at_ 0, F.SNT_KEYS.at_ 0] ∧
      (∀ i, i < 5 → d.bit F.SNT_LOCK_LOCK 0 i = (s.dev.bit F.SNT_LOCK_LOCK 0 i || bits.getLsbD i)) ∧
      (s.dev.wdn.svc = none → d.wdn = s.dev.wdn) ∧
      (∀ v, s.dev.wdn.svc = some v → v.own = false → v.stop = 0 → v.code = 3 ∨ v.code = 4 ∨ v.code = 6 →
        old.testBit 4 = false → bits.getLsbD 4 = true → d.wdn.svc = some { v with stop := 0x03 })) ∧
    (¬routed → exec (.wardenEvent ev) s = .next s) ∧
    (routed → s.dev.partner 7 ≠ some 8 → Gives s (.wardenEvent ev) fun d => d.ev n = false ∧
      d.get F.WDN_ESC_LASTEV = n ∧ d.get F.WDN_ESC_COUNT = min (s.dev.get F.WDN_ESC_COUNT + 1) 65535 ∧
      (∀ k ∈ axes, d.bit F.WDN_ESC_BLOCK 0 k = true) ∧
      (∀ k ∈ axes, s.dev.cst k = .run → s.dev.get F.LEG_CFG_POLICY (3 * s.dev.lead k) ≠ 3 → d.cst k = .safe) ∧
      (∀ k, k < 8 → s.dev.cst k = .safe → d.cst k = .safe)) ∧
    (q.val < 10 → (s.dev.eng q).burst = none →
      let far := (s.dev.run q).far
      (far = [] → exec cut s = .next s) ∧
      (∀ f rest, far = f :: rest →
        let b := bankOf f.addr
        ((s.dev.granted b own).2 = none → exec cut s = .next s) ∧
        (∀ x r, s.dev.granted b own = (x, some r) →
          let B := holdEnd x b (r.at_.getD 0)
          Gives s cut fun d => recorded B d ∧ leaves B d b r ∧ (d.run q).far = rest ∧
            (f.load = true → (d.run q).W f.dest = 0 ∧ ∀ n, n ≠ f.dest → (d.run q).W n = (B.run q).W n) ∧
            (f.load = false → (d.run q).w = (B.run q).w) ∧ d.flag F.ENG_STAT_AF q = true ∧
            ((B.run q).faulted = false → d.get F.ENG_AFLT_KIND q = 5 ∧ d.get F.ENG_AFLT_PC q = f.pc % 2 ^ F.ENG_AFLT_PC.width)))) ∧
    (q.val < 10 → (s.dev.eng q).burst ≠ none →
      let w := s.dev.untilWord q s.dev.waits
      (w.2 = none ∨ (w.1.eng q).burst = none → exec cut s = .next s) ∧
      (∀ t y, w.2 = some t → (w.1.eng q).burst = some y →
        let c := if y.next = 0 then w.1.clearHalf y else w.1
        let B := holdEnd (c.cutBurst q) 15 t
        (y.next = 0 → (c.cal (y.addr + 0x40)).getLsbD 39 = false) ∧
        Gives s cut fun d => recorded B d ∧ (d.eng q).burst = none ∧ d.reg (F.ENG_CKPT.at_ q) = w.1.reg (F.ENG_CKPT.at_ q))) ∧
    (q.val = 10 ∨ q.val = 11 →
      let C := s.dev.awaitBanks q 1
      (held = none → exec cut s = .next s) ∧
      (∀ r, C.resvOf q = some r → r.from_ = none → Gives s cut fun d => d = C) ∧
      (∀ r t, C.resvOf q = some r → r.from_ = some t →
        let B := C.toCycle (t + C.get F.CON_HOLD_HOLDMAX)
        Gives s cut fun d => recorded B d ∧ B.keepsRegs d [F.CON_CUTOFF.at_ 0, F.EVT_STAT.at_ 3] ∧ d.resvOf q = none ∧
          (q.val = 10 → d.jnl = { B.jnl with unwritten := r.staged ++ B.jnl.unwritten }) ∧ (q.val = 11 → d.jnl = B.jnl))) ∧
    (q.val = 12 →
      (s.dev.host.window = none → exec cut s = .next s) ∧
      (∀ f p, s.dev.host.window = some (f, p) →
        let b := bankOf (p * 16384 + (f.addr - 0x4000))
        ((s.dev.granted b own).2 = none → exec cut s = .next s) ∧
        (∀ x r, s.dev.granted b own = (x, some r) →
          let B := holdEnd x b (r.at_.getD 0)
          Gives s cut fun d => recorded B d ∧ leaves B d b r ∧
            d.host = { B.host with window := none, resp := some (respFrame f.addr 3 (if f.rd then 0 else f.data)) }))) ∧
    (∀ ctl : Fin 4, q.val = 13 + ctl.val →
      let b := bankOf (s.dev.dmaAddr ctl)
      ((s.dev.granted b own).2 = none → exec cut s = .next s) ∧
      (∀ x r, s.dev.granted b own = (x, some r) →
        let B := holdEnd x b (r.at_.getD 0)
        Gives s cut fun d => recorded B d ∧ leaves B d b r ∧ (d.ctl ctl).dmaStop = true ∧ (d.ctl ctl).fifo = (B.ctl ctl).fifo ∧
          d.flag F.CAN_CNT2_DMAERR ctl = true ∧ d.ev (67 + 4 * ctl.val) = true)) ∧
    (let rel : Instr := .reservationRelease q
     let A := s.dev.awaitBanks q s.dev.waits
     (held = none → q.val ≠ 10 → exec rel s = .next s) ∧
     (∀ r, held = some r → r.banks = [] → A = s.dev) ∧
     (∀ r, A.resvOf q = some r → r.banks ≠ [] → Gives s rel fun d => d = A) ∧
     (∀ r, A.resvOf q = some r → r.banks = [] →
       let applied := fun d : Dev => (∀ x, (∀ p ∈ r.staged, p.1 ≠ x) → d.cal x = A.cal x) ∧
         (∀ l₁ x w l₂, r.staged = l₁ ++ (x, w) :: l₂ → (∀ p ∈ l₂, p.1 ≠ x) → d.cal x = w)
       let last := A.jnl.unwritten = [] ∨ A.jnl.banks = []
       (q.val ≠ 10 → Gives s rel fun d => applied d ∧ d.regs = A.regs ∧ d.jnl = A.jnl ∧ d.resvOf q = none) ∧
       (q.val = 10 → last → Gives s rel fun d => applied d ∧ d.regs = A.regs ∧
         d.jnl = { A.jnl with undo := none, unwritten := [] } ∧ d.resvOf q = none) ∧
       (q.val = 10 → ¬last → Gives s rel fun d => applied d ∧ d.regs = A.regs ∧
         d.jnl = { A.jnl with unwritten := A.jnl.unwritten.drop 64, undo := d.jnl.undo } ∧
         ∃ y, d.resvOf q = some y ∧ y.staged = A.jnl.unwritten.take 64))) ∧
    ((s.dev.con.wb.find? fun x => bankOf x == bank.val) = none → exec (.eccWriteBack bank) s = .next s) ∧
    (∀ x, (s.dev.con.wb.find? fun x => bankOf x == bank.val) = some x → Gives s (.eccWriteBack bank) fun d =>
      d = { s.dev with con := { s.dev.con with wb := s.dev.con.wb.filter fun y => y ≠ x } })

/-- R456 to R461: an instruction of the TAP becomes current and captures the register that it selects; under EXTEST and
CLAMP the gates follow the cells, under HIGHZ and above the interlock threshold they are held off, every axis is SAFE,
and no two cells turn both gates of a leg on; leaving scan mode holds every gate off. The control die is not touched.
Under EXTEST and CLAMP the other outputs without a control cell show their cells, under HIGHZ nothing is driven. (What other
pins show is a free value, log entry 28. That a TAP reset keeps the update latch, and that BYPASS, CLAMP and HIGHZ capture 0,
are the model's choices, log entry 65.) -/
def Obligations.TestAccessPort : Prop :=
  ∀ (s : State) (cells : BitVec 91) (above : Bool),
    let v := s.dev.vent
    let only := fun d : Dev => d = { s.dev with tap := d.tap, vent := d.vent, free := d.free }
    let follows := fun (d : Dev) (x : BitVec 91) => d.vent.scan = some x ∧ (∀ k, k < 8 → (d.vent.axis k).st = .safe ∧
        (d.vent.axis k).act = .none ∧ (d.vent.axis k).chal = none) ∧
      (∀ l, l < 24 → ((d.vent.leg l).h.on = true → x.getLsbD (2 * l) = true ∧ x.getLsbD (2 * l + 1) = false) ∧
        ((d.vent.leg l).l.on = true → x.getLsbD (2 * l + 1) = true ∧ x.getLsbD (2 * l) = false) ∧
        (x.getLsbD (2 * l) = true → x.getLsbD (2 * l + 1) = false → (v.leg l).h.on = true → (d.vent.leg l).h.on = true)) ∧
      (∀ b, b < 4 → (d.vent.brake b).gate = true → x.getLsbD (48 + b) = true ∨ (d.vent.brake b).cmp = true)
    let driven := fun (d : Dev) (i : TapInstr) (latch : BitVec 91) (hv : Bool) => v.inReset = false →
      ((i = .extest ∨ i = .clamp) → follows d (if hv then 0 else latch)) ∧ (i = .highz → follows d 0) ∧
      (i ≠ .extest → i ≠ .clamp → i ≠ .highz →
        (v.scan = none → d.vent = v) ∧
        (v.scan ≠ none → d.vent.scan = none ∧ ∀ l, l < 24 → (d.vent.leg l).h.on = false ∧ (d.vent.leg l).l.on = false))
    (∀ p ∈ [(Instr.tapReset, TapInstr.idcode), (.extest, .extest), (.samplePreload, .sample), (.idcode, .idcode),
        (.tapClamp, .clamp), (.highz, .highz), (.bypass, .bypass)], Gives s p.1 fun d => only d ∧
      d.tap.instr = p.2 ∧ d.tap.latch = s.dev.tap.latch ∧ d.tap.hv = s.dev.tap.hv ∧ (v.inReset = true → d.vent = v) ∧
      driven d p.2 s.dev.tap.latch s.dev.tap.hv ∧
      (p.2 = .idcode → d.tap.sample = BitVec.ofNat 91 (s.dev.get F.SNT_REV_REV % 16 * 2 ^ 28 + 0x00840A8F)) ∧
      (p.2 = .bypass ∨ p.2 = .clamp ∨ p.2 = .highz → d.tap.sample = 0) ∧
      (p.2 = .extest ∨ p.2 = .sample → (∀ l, l < 24 → d.tap.sample.getLsbD (2 * l) = (d.vent.leg l).h.on ∧
          d.tap.sample.getLsbD (2 * l + 1) = (d.vent.leg l).l.on) ∧
        (∀ b, b < 4 → d.tap.sample.getLsbD (48 + b) = (d.vent.brake b).gate) ∧ d.tap.sample.getLsbD 74 = s.dev.syncoutHigh) ∧
      (p.1 ≠ .tapReset → d.tap.irOut = some 0b0101#4) ∧ (p.2 = .highz → ∀ n, d.outPin n = none) ∧
      (p.2 = .extest ∨ p.2 = .clamp → ∀ n, controlCell n = none → d.outPin n = some (s.dev.tap.latch.getLsbD n))) ∧
    (s.dev.tap.instr ≠ .extest → s.dev.tap.instr ≠ .sample → exec (.scanUpdateDr cells) s = .next s) ∧
    (s.dev.tap.instr = .extest ∨ s.dev.tap.instr = .sample → Gives s (.scanUpdateDr cells) fun d => only d ∧
      d.tap.latch = cells ∧ d.tap.instr = s.dev.tap.instr ∧ d.tap.hv = s.dev.tap.hv ∧
      driven d s.dev.tap.instr cells s.dev.tap.hv ∧
      ∀ l, l < 24 → d.tap.sample.getLsbD (2 * l) = (v.leg l).h.on ∧ d.tap.sample.getLsbD (2 * l + 1) = (v.leg l).l.on) ∧
    (Gives s (.scanBusInterlock above) fun d => only d ∧ d.tap = { s.dev.tap with hv := above } ∧
      driven d s.dev.tap.instr s.dev.tap.latch above)

/-! ### The block as a whole -/

/-- A step runs the command at the front of the queue, with the queue's rest, and whatever that command answers is the
step's answer. On an empty queue one core cycle passes: the clock and the angle generators run on, the lines of the axes that have just
left RUN fall, and a checkpoint burst whose last word is written ends (log entries 1, 11 and 48). No command looks at the queue or changes it. -/
def Obligations.FrontCommandRuns : Prop :=
  (∀ (s : State) (c : Instr) (rest : List Instr), s.pending = c :: rest → step s = exec c { s with pending := rest }) ∧
  (∀ s : State, s.pending = [] → step s = .next { s with dev := s.dev.advance 1 } ∧ (s.dev.advance 1).clk.now = s.dev.clk.now + 1) ∧
  (∀ (s t : State) (c : Instr) (l : List Instr), exec c s = .next t →
    t.pending = s.pending ∧ exec c { s with pending := l } = .next { t with pending := l })

/-- R11, with the Reset columns of R249, R287, R335, R362, R411 and R431: what stands after power-on reset, before
anything has happened. Both dies are in reset and every axis is SAFE on both; no gate is on, no heartbeat or packet is in
flight, no engine runs, the journal is empty, Caldera reads 0 (log entry 3), and no command waits. The register values
are those of the Reset columns; where a column says OTP the model has 0 until the boot load (log entry 2). -/
def Obligations.ResetState : Prop :=
  let s := State.reset
  let d := s.dev
  (d.awake = false ∧ d.vent.inReset = true ∧ d.vent.vrst = true ∧ d.sys.sealed = false ∧ d.sys.portUp = false) ∧
  (∀ k, k < 8 → d.cst k = .safe ∧ d.vst k = .safe ∧ (d.vent.axis k).st = .safe ∧ (d.vent.axis k).act = .none) ∧
  (∀ l, l < 24 → (d.vent.leg l).h.on = false ∧ (d.vent.leg l).l.on = false ∧ (d.leg l).hcmd = false ∧ (d.leg l).lcmd = false) ∧
  (∀ b, b < 4 → (d.vent.brake b).gate = false) ∧
  (d.link.hb = none ∧ d.link.arm = none ∧ d.link.status = none) ∧ (∀ e, e < 10 → (d.run e).live = false ∧ (d.eng e).pmem = []) ∧
  (d.jnl.entries = [] ∧ d.jnl.fifo = [] ∧ d.jnl.params = []) ∧ (∀ x, d.cal x = 0) ∧ s.pending = [] ∧
  (∀ j, j < 96 → d.get F.COR_CH_GAIN j = 0x4000) ∧ (∀ k, k < 8 → d.get F.AX_CFG_OBSREP k = 7 ∧ d.get F.AX_CSTAT_FPH k = 3) ∧
  (d.get F.ENG_PSTAT_AX8 = 8 ∧ d.get F.ENG_PSTAT_AX9 = 8 ∧ d.get F.ENG_PROM_HOLD8 = 8 ∧ d.get F.ENG_PROM_HOLD9 = 8) ∧
  (fget (d.reg F.CON_PRIO.addr) 0 20 = 0xAAAAA ∧ fget (d.reg F.CON_PRIO.addr) 20 4 = 15 ∧ fget (d.reg F.CON_PRIO.addr) 24 2 = 1 ∧
    fget (d.reg F.CON_PRIO.addr) 26 8 = 0x55 ∧ d.get F.CON_HOLD_HOLDMAX = 1024) ∧
  (∀ c, c < 4 → d.get F.CAN_STAT_STATE c = 3) ∧
  (d.get F.THM_LIM_TWARN = 130 ∧ d.get F.THM_LIM_TTHR = 140 ∧ d.get F.THM_LIM_TSD = 160 ∧ d.get F.THM_LIM_HWARN = 4 ∧
    d.get F.THM_LIM_HTHR = 4 ∧ d.get F.THM_LIM_HSD = 4 ∧ d.get F.THM_SLOPE_KS = 3277 ∧ d.get F.THM_SLOPE_SMIN = 16384 ∧
    d.get F.THM_STAT_S = 65536) ∧
  (d.get F.DIE_RSTC_CAUSE = 0 ∧ d.flag F.DIE_RSTC_RETLOST = true) ∧ (∀ j, j < 4 → d.reg (F.EVT_STAT.at_ j) = 0) ∧
  s.tablesOk ∧ s.noShoot ∧ s.otpSound

/-- Every step keeps the canonical form of Caldera and of the Sinter array, so that equal contents are equal data, and no
command sees an address that is listed twice. -/
def Obligations.TablesStayCanonical : Prop :=
  ∀ s t : State, s.tablesOk → step s = .next t → t.tablesOk

/-- R86: whatever happens, on the control die, on the link, on the Vent die's own pins or at the test access port, no
phase leg conducts through both gates. -/
def Obligations.NoLegShootsThrough : Prop :=
  ∀ s t : State, s.noShoot → step s = .next t → t.noShoot

/-- R417 for the Vent die, over every command: an axis of the Vent die goes to a higher authority state only from SAFE to
ARMED, by an ARM_CONF with both nonces of its open challenge, or from ARMED to RUN, by a heartbeat that arrived whole and
carries RUN for the axis; and never while the die is in reset. -/
def Obligations.VentAuthorityRises : Prop :=
  ∀ (s t : State) (k : Nat), step s = .next t → k < 8 →
    ((s.dev.vent.axis k).st.rank < (t.dev.vent.axis k).st.rank) →
    s.dev.vent.inReset = false ∧
    (((s.dev.vent.axis k).st = .safe ∧ (t.dev.vent.axis k).st = .armed ∧
        ∃ (n1 n2 : BitVec 32) (rest : List Instr), s.pending = .armConf (Fin.ofNat 8 k) n1 n2 :: rest ∧
          (s.dev.vent.axis k).chal = some (n1.toNat, n2.toNat)) ∨
      ((s.dev.vent.axis k).st = .armed ∧ (t.dev.vent.axis k).st = .run ∧
        ∃ (vdrv : BitVec 10) (i : Nat) (rest : List Instr) (hb : Heartbeat), s.pending = .ventHeartbeatRx true vdrv i :: rest ∧
          s.dev.link.hb = some hb ∧ hb.states[k]? = some .run))

/-- R384, R389: whatever happens, a Sinter word that is programmed stays programmed. Outside the rollback region it keeps
its value; inside, no bit goes from 1 to 0. Only a programming service under way changes the array. -/
def Obligations.ProgrammedWordsStay : Prop :=
  ∀ s t : State, s.otpSound → step s = .next t → t.otpSound ∧
    (∀ a w, otpWord s.otp a = some w → ∃ w', otpWord t.otp a = some w' ∧ (isRollback a = false → w' = w) ∧
      ∀ i, i < 40 → w.getLsbD i = true → w'.getLsbD i = true) ∧
    (s.dev.wdn.svc = none → t.otp = s.otp)

/-- Every command whose operands are in their ranges answers a next state with the queue as it was; one with an operand out of
its range stops with the fault that names it. (That a command whose condition does not hold, or whose word is another than the
one at the program counter, leaves the state as it is, and that a frame of a wrong length stops, are the model's choices, log
entries 6 and 41.) -/
def Obligations.EveryCommandRuns : Prop :=
  ∀ (c : Instr) (s : State),
    (c.wf = true → ∃ d o, exec c s = .next { s with dev := d, otp := o }) ∧
    (c.wf = false → exec c s = .fault .illFormed)

/-- R88, R306, R417: the entries to RUN at a tick. An axis enters RUN when the control die holds it ARMED and the Vent
die's last report, or an ARM_ACK after it, showed it ARMED or RUN; no other axis changes its state. Its legs then float
with their duties at 0, BCNT at 255 and ENTRY set; its crossings are no longer valid; its next run is the first since RUN
entry. -/
def Obligations.RunEntry : Prop :=
  ∀ (d : Dev) (k : Nat), k < 8 →
    let ready := d.cst k = .armed ∧ (d.link.acked.testBit k = true ∨ d.vst k ≠ .safe)
    let o := d.runEntries
    (o.vent = d.vent ∧ o.link = d.link ∧ o.jnl = d.jnl ∧ o.engs = d.engs ∧ o.con = d.con) ∧
    (¬ready → o.cst k = d.cst k ∧ o.axis k = d.axis k ∧ ∀ l ∈ legsOf k, o.leg l = d.leg l ∧
      o.reg (F.LEG_SDUTY.at_ l) = d.reg (F.LEG_SDUTY.at_ l) ∧ o.reg (F.LEG_ADUTY.at_ l) = d.reg (F.LEG_ADUTY.at_ l) ∧
      o.reg (F.LEG_STAT.at_ l) = d.reg (F.LEG_STAT.at_ l)) ∧
    (ready → o.cst k = .run ∧ (o.axis k).fr = true ∧ o.flag F.AX_CX_VALID k = false ∧
      o.flag (F.AX_CX_VALID.nth 1) k = false ∧ (o.comm k).cx0 = none ∧ (o.comm k).cx1 = none ∧
      ∀ l ∈ legsOf k, o.reg (F.LEG_SDUTY.at_ l) = 0 ∧ o.reg (F.LEG_ADUTY.at_ l) = 0 ∧ o.get F.LEG_STAT_BCNT l = 255 ∧
        o.flag F.LEG_STAT_ENTRY l = true ∧ o.flag F.LEG_STAT_FLOAT l = true ∧ o.flag F.LEG_STAT_OUTEN l = true ∧
        (o.leg l).hcmd = false ∧ (o.leg l).lcmd = false ∧ (o.leg l).written = false) ∧
    (∀ j, d.vst j = o.vst j)
end

