-- ==== Sys2Proof/Laws/Tables.lean ====
section
/-! SUPPORT. Reads after writes of the sparse tables and of the fields of a word, and the canonical form. -/

namespace Sys2Proof.Machine

/-! ### Tables -/

/-- Dropping entries up to `i` leaves every later key as it was, and every key up to `i` unlisted. -/
theorem tget_tdrop {α : Type} (d : Nat → α) (t : List (Nat × α)) (i j : Nat) :
    tget d (tdrop i t) j = if j ≤ i then d j else tget d t j := by
  induction t with
  | nil => simp [tdrop, tget]
  | cons p t ih =>
    obtain ⟨k, w⟩ := p
    simp only [tdrop]
    split
    · rw [ih]
      split
      · rfl
      · rw [tget]; split
        · omega
        · split
          · omega
          · rfl
    · by_cases h : j ≤ i
      · rw [if_pos h, tget, if_pos (by omega)]
      · rw [if_neg h]

/-- A read after a write: the written key gives the value, every other key what it gave before. -/
theorem tget_tset {α : Type} [DecidableEq α] (d : Nat → α) (t : List (Nat × α)) (i j : Nat) (v : α) :
    tget d (tset d t i v) j = if j = i then v else tget d t j := by
  induction t with
  | nil =>
    by_cases hv : v = d i <;> by_cases hj : j = i <;> simp [tset, tget, hv, hj]
  | cons p t ih =>
    obtain ⟨k, w⟩ := p
    simp only [tset]
    split
    · rename_i hik
      split
      · rename_i hv
        by_cases hj : j = i
        · subst hj; simp [tget, hik, hv]
        · simp [hj]
      · by_cases hj : j = i
        · subst hj; simp [tget]
        · rw [if_neg hj, tget]
          split
          · rw [tget, if_pos (by omega)]
          · rfl
    · split
      · rename_i h1 h2
        subst h2
        split
        · rename_i hv
          rw [tget_tdrop]
          by_cases hj : j = i
          · subst hj; simp [hv]
          · rw [if_neg hj, tget]
            by_cases hlt : j < i
            · rw [if_pos (by omega), if_pos hlt]
            · rw [if_neg (by omega), if_neg hlt, if_neg hj]
        · by_cases hj : j = i
          · subst hj; simp [tget]
          · simp [tget, hj]
      · rename_i h1 h2
        rw [tget, ih]
        by_cases hj : j = i
        · subst hj; simp [h1, h2]
        · rw [if_neg hj, tget, if_neg hj]

/-- Dropping keeps the canonical form above the dropped keys. -/
theorem twfFrom_tdrop {α : Type} [DecidableEq α] (d : Nat → α) (t : List (Nat × α)) (lo i : Nat)
    (h : twfFrom d lo t = true) (hl : i < lo) : tdrop i t = t := by
  cases t with
  | nil => rfl
  | cons p t =>
    obtain ⟨k, w⟩ := p
    simp only [twfFrom, Bool.and_eq_true, decide_eq_true_eq] at h
    rw [tdrop, if_neg (by omega)]

/-- A lower bound may be lowered. -/
theorem twfFrom_mono {α : Type} [DecidableEq α] (d : Nat → α) (t : List (Nat × α)) (lo lo' : Nat)
    (h : twfFrom d lo t = true) (hl : lo' ≤ lo) : twfFrom d lo' t = true := by
  cases t with
  | nil => rfl
  | cons p t =>
    obtain ⟨k, w⟩ := p
    simp only [twfFrom, Bool.and_eq_true, decide_eq_true_eq] at h ⊢
    exact ⟨⟨by omega, h.1.2⟩, h.2⟩

/-- A write keeps the canonical form. -/
theorem twfFrom_tset {α : Type} [DecidableEq α] (d : Nat → α) (t : List (Nat × α)) (lo i : Nat) (v : α)
    (h : twfFrom d lo t = true) (hl : lo ≤ i) : twfFrom d lo (tset d t i v) = true := by
  induction t generalizing lo with
  | nil => by_cases hv : v = d i <;> simp [tset, twfFrom, hv, hl]
  | cons p t ih =>
    obtain ⟨k, w⟩ := p
    simp only [twfFrom, Bool.and_eq_true, decide_eq_true_eq] at h
    simp only [tset]
    split
    · split
      · simp [twfFrom, h.1.1, h.1.2, h.2]
      · rename_i h1 h2
        simp only [twfFrom, Bool.and_eq_true, decide_eq_true_eq]
        exact ⟨⟨hl, h2⟩, ⟨by omega, h.1.2⟩, h.2⟩
    · split
      · rename_i h1 h2
        subst h2
        split
        · rw [twfFrom_tdrop d t (i + 1) i h.2 (by omega)]
          exact twfFrom_mono d t (i + 1) lo h.2 (by omega)
        · rename_i hv
          simp only [twfFrom, Bool.and_eq_true, decide_eq_true_eq]
          exact ⟨⟨hl, hv⟩, h.2⟩
      · simp only [twfFrom, Bool.and_eq_true, decide_eq_true_eq]
        exact ⟨h.1, ih (k + 1) h.2 (by omega)⟩

/-- A write keeps the canonical form of a table. -/
theorem twf_tset {α : Type} [DecidableEq α] (d : Nat → α) (t : List (Nat × α)) (i : Nat) (v : α)
    (h : twf d t = true) : twf d (tset d t i v) = true := twfFrom_tset d t 0 i v h (Nat.zero_le _)

/-- A replicated unit after an update. -/
theorem uget_uset {α : Type} [Inhabited α] [DecidableEq α] (t : List (Nat × α)) (i j : Nat) (v : α) :
    uget (uset t i v) j = if j = i then v else uget t j := tget_tset _ t i j v

@[simp] theorem uget_uset_same {α : Type} [Inhabited α] [DecidableEq α] (t : List (Nat × α)) (i : Nat) (v : α) :
    uget (uset t i v) i = v := by rw [uget_uset, if_pos rfl]

theorem uget_uset_ne {α : Type} [Inhabited α] [DecidableEq α] (t : List (Nat × α)) (i j : Nat) (v : α) (h : j ≠ i) :
    uget (uset t i v) j = uget t j := by rw [uget_uset, if_neg h]

/-! ### Fields of a word -/

/-- Bit `j` of a field. -/
theorem testBit_fget (w : Word) (lo n j : Nat) : (fget w lo n).testBit j = (decide (j < n) && w.getLsbD (lo + j)) := by
  simp [fget, Nat.testBit_mod_two_pow, Nat.testBit_shiftRight, BitVec.getLsbD]

/-- Bit `j` of a word with a field replaced. -/
theorem getLsbD_fput (w : Word) (lo n v j : Nat) (h : lo + n ≤ 40) :
    (fput w lo n v).getLsbD j = if lo ≤ j ∧ j < lo + n then v.testBit (j - lo) else w.getLsbD j := by
  unfold fput fmask
  simp only [BitVec.getLsbD_or, BitVec.getLsbD_and, BitVec.getLsbD_not, BitVec.getLsbD_ofNat, Nat.testBit_shiftLeft,
    Nat.testBit_mod_two_pow, Nat.testBit_two_pow_sub_one]
  by_cases hj : j < 40
  · by_cases h1 : lo ≤ j
    · by_cases h2 : j < lo + n
      · have : j - lo < n := by omega
        simp [hj, h1, h2, this]
      · have : ¬ j - lo < n := by omega
        simp [hj, h1, h2, this]
    · simp [hj, h1]
  · have h2 : ¬ (lo ≤ j ∧ j < lo + n) := by omega
    simp [hj, h2, BitVec.getLsbD_of_ge w j (by omega)]

/-- A field reads as it was written, modulo its width. -/
theorem fget_fput_same (w : Word) (lo n v : Nat) (h : lo + n ≤ 40) : fget (fput w lo n v) lo n = v % 2 ^ n := by
  apply Nat.eq_of_testBit_eq
  intro j
  rw [testBit_fget, getLsbD_fput _ _ _ _ _ h, Nat.testBit_mod_two_pow]
  by_cases hj : j < n
  · simp [hj]
  · simp [hj]

/-- A write of one field leaves a field beside it. -/
theorem fget_fput_disjoint (w : Word) (lo n v lo' n' : Nat) (h : lo + n ≤ 40)
    (hd : lo' + n' ≤ lo ∨ lo + n ≤ lo') : fget (fput w lo n v) lo' n' = fget w lo' n' := by
  apply Nat.eq_of_testBit_eq
  intro j
  rw [testBit_fget, testBit_fget, getLsbD_fput _ _ _ _ _ h]
  by_cases hj : j < n'
  · rw [if_neg (by omega)]
  · simp [hj]

/-- A field lies below its width. -/
theorem fget_lt (w : Word) (lo n : Nat) : fget w lo n < 2 ^ n := Nat.mod_lt _ (Nat.two_pow_pos n)

end Sys2Proof.Machine
end

