-- ==== Sys2Proof/Laws/State.lean ====
section
/-! SUPPORT. What each update of the device leaves as it was: one lemma for each field and update, and the reads of the
field that an update changes. -/

namespace Sys2Proof.Machine

/-! ### `Dev.setReg` -/
@[simp] theorem Dev.setReg_clk (d : Dev) (a : Nat) (w : Word) : (d.setReg a w).clk = d.clk := rfl
@[simp] theorem Dev.setReg_sys (d : Dev) (a : Nat) (w : Word) : (d.setReg a w).sys = d.sys := rfl
@[simp] theorem Dev.setReg_img (d : Dev) (a : Nat) (w : Word) : (d.setReg a w).img = d.img := rfl
@[simp] theorem Dev.setReg_gey (d : Dev) (a : Nat) (w : Word) : (d.setReg a w).gey = d.gey := rfl
@[simp] theorem Dev.setReg_legs (d : Dev) (a : Nat) (w : Word) : (d.setReg a w).legs = d.legs := rfl
@[simp] theorem Dev.setReg_brakes (d : Dev) (a : Nat) (w : Word) : (d.setReg a w).brakes = d.brakes := rfl
@[simp] theorem Dev.setReg_vent (d : Dev) (a : Nat) (w : Word) : (d.setReg a w).vent = d.vent := rfl
@[simp] theorem Dev.setReg_link (d : Dev) (a : Nat) (w : Word) : (d.setReg a w).link = d.link := rfl
@[simp] theorem Dev.setReg_tap (d : Dev) (a : Nat) (w : Word) : (d.setReg a w).tap = d.tap := rfl
@[simp] theorem Dev.setReg_axes (d : Dev) (a : Nat) (w : Word) : (d.setReg a w).axes = d.axes := rfl
@[simp] theorem Dev.setReg_banks (d : Dev) (a : Nat) (w : Word) : (d.setReg a w).banks = d.banks := rfl
@[simp] theorem Dev.setReg_accs (d : Dev) (a : Nat) (w : Word) : (d.setReg a w).accs = d.accs := rfl
@[simp] theorem Dev.setReg_fbks (d : Dev) (a : Nat) (w : Word) : (d.setReg a w).fbks = d.fbks := rfl
@[simp] theorem Dev.setReg_cor (d : Dev) (a : Nat) (w : Word) : (d.setReg a w).cor = d.cor := rfl
@[simp] theorem Dev.setReg_axLive (d : Dev) (a : Nat) (w : Word) : (d.setReg a w).axLive = d.axLive := rfl
@[simp] theorem Dev.setReg_engs (d : Dev) (a : Nat) (w : Word) : (d.setReg a w).engs = d.engs := rfl
@[simp] theorem Dev.setReg_patrol (d : Dev) (a : Nat) (w : Word) : (d.setReg a w).patrol = d.patrol := rfl
@[simp] theorem Dev.setReg_jnl (d : Dev) (a : Nat) (w : Word) : (d.setReg a w).jnl = d.jnl := rfl
@[simp] theorem Dev.setReg_con (d : Dev) (a : Nat) (w : Word) : (d.setReg a w).con = d.con := rfl
@[simp] theorem Dev.setReg_can (d : Dev) (a : Nat) (w : Word) : (d.setReg a w).can = d.can := rfl
@[simp] theorem Dev.setReg_host (d : Dev) (a : Nat) (w : Word) : (d.setReg a w).host = d.host := rfl
@[simp] theorem Dev.setReg_wdn (d : Dev) (a : Nat) (w : Word) : (d.setReg a w).wdn = d.wdn := rfl
@[simp] theorem Dev.setReg_free (d : Dev) (a : Nat) (w : Word) : (d.setReg a w).free = d.free := rfl

/-! ### `Dev.put` -/
@[simp] theorem Dev.put_clk (d : Dev) (f : Fld) (i v : Nat) : (d.put f i v).clk = d.clk := rfl
@[simp] theorem Dev.put_sys (d : Dev) (f : Fld) (i v : Nat) : (d.put f i v).sys = d.sys := rfl
@[simp] theorem Dev.put_img (d : Dev) (f : Fld) (i v : Nat) : (d.put f i v).img = d.img := rfl
@[simp] theorem Dev.put_gey (d : Dev) (f : Fld) (i v : Nat) : (d.put f i v).gey = d.gey := rfl
@[simp] theorem Dev.put_legs (d : Dev) (f : Fld) (i v : Nat) : (d.put f i v).legs = d.legs := rfl
@[simp] theorem Dev.put_brakes (d : Dev) (f : Fld) (i v : Nat) : (d.put f i v).brakes = d.brakes := rfl
@[simp] theorem Dev.put_vent (d : Dev) (f : Fld) (i v : Nat) : (d.put f i v).vent = d.vent := rfl
@[simp] theorem Dev.put_link (d : Dev) (f : Fld) (i v : Nat) : (d.put f i v).link = d.link := rfl
@[simp] theorem Dev.put_tap (d : Dev) (f : Fld) (i v : Nat) : (d.put f i v).tap = d.tap := rfl
@[simp] theorem Dev.put_axes (d : Dev) (f : Fld) (i v : Nat) : (d.put f i v).axes = d.axes := rfl
@[simp] theorem Dev.put_banks (d : Dev) (f : Fld) (i v : Nat) : (d.put f i v).banks = d.banks := rfl
@[simp] theorem Dev.put_accs (d : Dev) (f : Fld) (i v : Nat) : (d.put f i v).accs = d.accs := rfl
@[simp] theorem Dev.put_fbks (d : Dev) (f : Fld) (i v : Nat) : (d.put f i v).fbks = d.fbks := rfl
@[simp] theorem Dev.put_cor (d : Dev) (f : Fld) (i v : Nat) : (d.put f i v).cor = d.cor := rfl
@[simp] theorem Dev.put_axLive (d : Dev) (f : Fld) (i v : Nat) : (d.put f i v).axLive = d.axLive := rfl
@[simp] theorem Dev.put_engs (d : Dev) (f : Fld) (i v : Nat) : (d.put f i v).engs = d.engs := rfl
@[simp] theorem Dev.put_patrol (d : Dev) (f : Fld) (i v : Nat) : (d.put f i v).patrol = d.patrol := rfl
@[simp] theorem Dev.put_jnl (d : Dev) (f : Fld) (i v : Nat) : (d.put f i v).jnl = d.jnl := rfl
@[simp] theorem Dev.put_con (d : Dev) (f : Fld) (i v : Nat) : (d.put f i v).con = d.con := rfl
@[simp] theorem Dev.put_can (d : Dev) (f : Fld) (i v : Nat) : (d.put f i v).can = d.can := rfl
@[simp] theorem Dev.put_host (d : Dev) (f : Fld) (i v : Nat) : (d.put f i v).host = d.host := rfl
@[simp] theorem Dev.put_wdn (d : Dev) (f : Fld) (i v : Nat) : (d.put f i v).wdn = d.wdn := rfl
@[simp] theorem Dev.put_free (d : Dev) (f : Fld) (i v : Nat) : (d.put f i v).free = d.free := rfl

/-! ### `Dev.putB` -/
@[simp] theorem Dev.putB_clk (d : Dev) (f : Fld) (i : Nat) (b : Bool) : (d.putB f i b).clk = d.clk := rfl
@[simp] theorem Dev.putB_sys (d : Dev) (f : Fld) (i : Nat) (b : Bool) : (d.putB f i b).sys = d.sys := rfl
@[simp] theorem Dev.putB_img (d : Dev) (f : Fld) (i : Nat) (b : Bool) : (d.putB f i b).img = d.img := rfl
@[simp] theorem Dev.putB_gey (d : Dev) (f : Fld) (i : Nat) (b : Bool) : (d.putB f i b).gey = d.gey := rfl
@[simp] theorem Dev.putB_legs (d : Dev) (f : Fld) (i : Nat) (b : Bool) : (d.putB f i b).legs = d.legs := rfl
@[simp] theorem Dev.putB_brakes (d : Dev) (f : Fld) (i : Nat) (b : Bool) : (d.putB f i b).brakes = d.brakes := rfl
@[simp] theorem Dev.putB_vent (d : Dev) (f : Fld) (i : Nat) (b : Bool) : (d.putB f i b).vent = d.vent := rfl
@[simp] theorem Dev.putB_link (d : Dev) (f : Fld) (i : Nat) (b : Bool) : (d.putB f i b).link = d.link := rfl
@[simp] theorem Dev.putB_tap (d : Dev) (f : Fld) (i : Nat) (b : Bool) : (d.putB f i b).tap = d.tap := rfl
@[simp] theorem Dev.putB_axes (d : Dev) (f : Fld) (i : Nat) (b : Bool) : (d.putB f i b).axes = d.axes := rfl
@[simp] theorem Dev.putB_banks (d : Dev) (f : Fld) (i : Nat) (b : Bool) : (d.putB f i b).banks = d.banks := rfl
@[simp] theorem Dev.putB_accs (d : Dev) (f : Fld) (i : Nat) (b : Bool) : (d.putB f i b).accs = d.accs := rfl
@[simp] theorem Dev.putB_fbks (d : Dev) (f : Fld) (i : Nat) (b : Bool) : (d.putB f i b).fbks = d.fbks := rfl
@[simp] theorem Dev.putB_cor (d : Dev) (f : Fld) (i : Nat) (b : Bool) : (d.putB f i b).cor = d.cor := rfl
@[simp] theorem Dev.putB_axLive (d : Dev) (f : Fld) (i : Nat) (b : Bool) : (d.putB f i b).axLive = d.axLive := rfl
@[simp] theorem Dev.putB_engs (d : Dev) (f : Fld) (i : Nat) (b : Bool) : (d.putB f i b).engs = d.engs := rfl
@[simp] theorem Dev.putB_patrol (d : Dev) (f : Fld) (i : Nat) (b : Bool) : (d.putB f i b).patrol = d.patrol := rfl
@[simp] theorem Dev.putB_jnl (d : Dev) (f : Fld) (i : Nat) (b : Bool) : (d.putB f i b).jnl = d.jnl := rfl
@[simp] theorem Dev.putB_con (d : Dev) (f : Fld) (i : Nat) (b : Bool) : (d.putB f i b).con = d.con := rfl
@[simp] theorem Dev.putB_can (d : Dev) (f : Fld) (i : Nat) (b : Bool) : (d.putB f i b).can = d.can := rfl
@[simp] theorem Dev.putB_host (d : Dev) (f : Fld) (i : Nat) (b : Bool) : (d.putB f i b).host = d.host := rfl
@[simp] theorem Dev.putB_wdn (d : Dev) (f : Fld) (i : Nat) (b : Bool) : (d.putB f i b).wdn = d.wdn := rfl
@[simp] theorem Dev.putB_free (d : Dev) (f : Fld) (i : Nat) (b : Bool) : (d.putB f i b).free = d.free := rfl

/-! ### `Dev.putI` -/
@[simp] theorem Dev.putI_clk (d : Dev) (f : Fld) (i : Nat) (v : Int) : (d.putI f i v).clk = d.clk := rfl
@[simp] theorem Dev.putI_sys (d : Dev) (f : Fld) (i : Nat) (v : Int) : (d.putI f i v).sys = d.sys := rfl
@[simp] theorem Dev.putI_img (d : Dev) (f : Fld) (i : Nat) (v : Int) : (d.putI f i v).img = d.img := rfl
@[simp] theorem Dev.putI_gey (d : Dev) (f : Fld) (i : Nat) (v : Int) : (d.putI f i v).gey = d.gey := rfl
@[simp] theorem Dev.putI_legs (d : Dev) (f : Fld) (i : Nat) (v : Int) : (d.putI f i v).legs = d.legs := rfl
@[simp] theorem Dev.putI_brakes (d : Dev) (f : Fld) (i : Nat) (v : Int) : (d.putI f i v).brakes = d.brakes := rfl
@[simp] theorem Dev.putI_vent (d : Dev) (f : Fld) (i : Nat) (v : Int) : (d.putI f i v).vent = d.vent := rfl
@[simp] theorem Dev.putI_link (d : Dev) (f : Fld) (i : Nat) (v : Int) : (d.putI f i v).link = d.link := rfl
@[simp] theorem Dev.putI_tap (d : Dev) (f : Fld) (i : Nat) (v : Int) : (d.putI f i v).tap = d.tap := rfl
@[simp] theorem Dev.putI_axes (d : Dev) (f : Fld) (i : Nat) (v : Int) : (d.putI f i v).axes = d.axes := rfl
@[simp] theorem Dev.putI_banks (d : Dev) (f : Fld) (i : Nat) (v : Int) : (d.putI f i v).banks = d.banks := rfl
@[simp] theorem Dev.putI_accs (d : Dev) (f : Fld) (i : Nat) (v : Int) : (d.putI f i v).accs = d.accs := rfl
@[simp] theorem Dev.putI_fbks (d : Dev) (f : Fld) (i : Nat) (v : Int) : (d.putI f i v).fbks = d.fbks := rfl
@[simp] theorem Dev.putI_cor (d : Dev) (f : Fld) (i : Nat) (v : Int) : (d.putI f i v).cor = d.cor := rfl
@[simp] theorem Dev.putI_axLive (d : Dev) (f : Fld) (i : Nat) (v : Int) : (d.putI f i v).axLive = d.axLive := rfl
@[simp] theorem Dev.putI_engs (d : Dev) (f : Fld) (i : Nat) (v : Int) : (d.putI f i v).engs = d.engs := rfl
@[simp] theorem Dev.putI_patrol (d : Dev) (f : Fld) (i : Nat) (v : Int) : (d.putI f i v).patrol = d.patrol := rfl
@[simp] theorem Dev.putI_jnl (d : Dev) (f : Fld) (i : Nat) (v : Int) : (d.putI f i v).jnl = d.jnl := rfl
@[simp] theorem Dev.putI_con (d : Dev) (f : Fld) (i : Nat) (v : Int) : (d.putI f i v).con = d.con := rfl
@[simp] theorem Dev.putI_can (d : Dev) (f : Fld) (i : Nat) (v : Int) : (d.putI f i v).can = d.can := rfl
@[simp] theorem Dev.putI_host (d : Dev) (f : Fld) (i : Nat) (v : Int) : (d.putI f i v).host = d.host := rfl
@[simp] theorem Dev.putI_wdn (d : Dev) (f : Fld) (i : Nat) (v : Int) : (d.putI f i v).wdn = d.wdn := rfl
@[simp] theorem Dev.putI_free (d : Dev) (f : Fld) (i : Nat) (v : Int) : (d.putI f i v).free = d.free := rfl

/-! ### `Dev.bump` -/
@[simp] theorem Dev.bump_clk (d : Dev) (f : Fld) (i k : Nat) : (d.bump f i k).clk = d.clk := rfl
@[simp] theorem Dev.bump_sys (d : Dev) (f : Fld) (i k : Nat) : (d.bump f i k).sys = d.sys := rfl
@[simp] theorem Dev.bump_img (d : Dev) (f : Fld) (i k : Nat) : (d.bump f i k).img = d.img := rfl
@[simp] theorem Dev.bump_gey (d : Dev) (f : Fld) (i k : Nat) : (d.bump f i k).gey = d.gey := rfl
@[simp] theorem Dev.bump_legs (d : Dev) (f : Fld) (i k : Nat) : (d.bump f i k).legs = d.legs := rfl
@[simp] theorem Dev.bump_brakes (d : Dev) (f : Fld) (i k : Nat) : (d.bump f i k).brakes = d.brakes := rfl
@[simp] theorem Dev.bump_vent (d : Dev) (f : Fld) (i k : Nat) : (d.bump f i k).vent = d.vent := rfl
@[simp] theorem Dev.bump_link (d : Dev) (f : Fld) (i k : Nat) : (d.bump f i k).link = d.link := rfl
@[simp] theorem Dev.bump_tap (d : Dev) (f : Fld) (i k : Nat) : (d.bump f i k).tap = d.tap := rfl
@[simp] theorem Dev.bump_axes (d : Dev) (f : Fld) (i k : Nat) : (d.bump f i k).axes = d.axes := rfl
@[simp] theorem Dev.bump_banks (d : Dev) (f : Fld) (i k : Nat) : (d.bump f i k).banks = d.banks := rfl
@[simp] theorem Dev.bump_accs (d : Dev) (f : Fld) (i k : Nat) : (d.bump f i k).accs = d.accs := rfl
@[simp] theorem Dev.bump_fbks (d : Dev) (f : Fld) (i k : Nat) : (d.bump f i k).fbks = d.fbks := rfl
@[simp] theorem Dev.bump_cor (d : Dev) (f : Fld) (i k : Nat) : (d.bump f i k).cor = d.cor := rfl
@[simp] theorem Dev.bump_axLive (d : Dev) (f : Fld) (i k : Nat) : (d.bump f i k).axLive = d.axLive := rfl
@[simp] theorem Dev.bump_engs (d : Dev) (f : Fld) (i k : Nat) : (d.bump f i k).engs = d.engs := rfl
@[simp] theorem Dev.bump_patrol (d : Dev) (f : Fld) (i k : Nat) : (d.bump f i k).patrol = d.patrol := rfl
@[simp] theorem Dev.bump_jnl (d : Dev) (f : Fld) (i k : Nat) : (d.bump f i k).jnl = d.jnl := rfl
@[simp] theorem Dev.bump_con (d : Dev) (f : Fld) (i k : Nat) : (d.bump f i k).con = d.con := rfl
@[simp] theorem Dev.bump_can (d : Dev) (f : Fld) (i k : Nat) : (d.bump f i k).can = d.can := rfl
@[simp] theorem Dev.bump_host (d : Dev) (f : Fld) (i k : Nat) : (d.bump f i k).host = d.host := rfl
@[simp] theorem Dev.bump_wdn (d : Dev) (f : Fld) (i k : Nat) : (d.bump f i k).wdn = d.wdn := rfl
@[simp] theorem Dev.bump_free (d : Dev) (f : Fld) (i k : Nat) : (d.bump f i k).free = d.free := rfl

/-! ### `Dev.putBit` -/
@[simp] theorem Dev.putBit_clk (d : Dev) (f : Fld) (i b : Nat) (v : Bool) : (d.putBit f i b v).clk = d.clk := rfl
@[simp] theorem Dev.putBit_sys (d : Dev) (f : Fld) (i b : Nat) (v : Bool) : (d.putBit f i b v).sys = d.sys := rfl
@[simp] theorem Dev.putBit_img (d : Dev) (f : Fld) (i b : Nat) (v : Bool) : (d.putBit f i b v).img = d.img := rfl
@[simp] theorem Dev.putBit_gey (d : Dev) (f : Fld) (i b : Nat) (v : Bool) : (d.putBit f i b v).gey = d.gey := rfl
@[simp] theorem Dev.putBit_legs (d : Dev) (f : Fld) (i b : Nat) (v : Bool) : (d.putBit f i b v).legs = d.legs := rfl
@[simp] theorem Dev.putBit_brakes (d : Dev) (f : Fld) (i b : Nat) (v : Bool) : (d.putBit f i b v).brakes = d.brakes := rfl
@[simp] theorem Dev.putBit_vent (d : Dev) (f : Fld) (i b : Nat) (v : Bool) : (d.putBit f i b v).vent = d.vent := rfl
@[simp] theorem Dev.putBit_link (d : Dev) (f : Fld) (i b : Nat) (v : Bool) : (d.putBit f i b v).link = d.link := rfl
@[simp] theorem Dev.putBit_tap (d : Dev) (f : Fld) (i b : Nat) (v : Bool) : (d.putBit f i b v).tap = d.tap := rfl
@[simp] theorem Dev.putBit_axes (d : Dev) (f : Fld) (i b : Nat) (v : Bool) : (d.putBit f i b v).axes = d.axes := rfl
@[simp] theorem Dev.putBit_banks (d : Dev) (f : Fld) (i b : Nat) (v : Bool) : (d.putBit f i b v).banks = d.banks := rfl
@[simp] theorem Dev.putBit_accs (d : Dev) (f : Fld) (i b : Nat) (v : Bool) : (d.putBit f i b v).accs = d.accs := rfl
@[simp] theorem Dev.putBit_fbks (d : Dev) (f : Fld) (i b : Nat) (v : Bool) : (d.putBit f i b v).fbks = d.fbks := rfl
@[simp] theorem Dev.putBit_cor (d : Dev) (f : Fld) (i b : Nat) (v : Bool) : (d.putBit f i b v).cor = d.cor := rfl
@[simp] theorem Dev.putBit_axLive (d : Dev) (f : Fld) (i b : Nat) (v : Bool) : (d.putBit f i b v).axLive = d.axLive := rfl
@[simp] theorem Dev.putBit_engs (d : Dev) (f : Fld) (i b : Nat) (v : Bool) : (d.putBit f i b v).engs = d.engs := rfl
@[simp] theorem Dev.putBit_patrol (d : Dev) (f : Fld) (i b : Nat) (v : Bool) : (d.putBit f i b v).patrol = d.patrol := rfl
@[simp] theorem Dev.putBit_jnl (d : Dev) (f : Fld) (i b : Nat) (v : Bool) : (d.putBit f i b v).jnl = d.jnl := rfl
@[simp] theorem Dev.putBit_con (d : Dev) (f : Fld) (i b : Nat) (v : Bool) : (d.putBit f i b v).con = d.con := rfl
@[simp] theorem Dev.putBit_can (d : Dev) (f : Fld) (i b : Nat) (v : Bool) : (d.putBit f i b v).can = d.can := rfl
@[simp] theorem Dev.putBit_host (d : Dev) (f : Fld) (i b : Nat) (v : Bool) : (d.putBit f i b v).host = d.host := rfl
@[simp] theorem Dev.putBit_wdn (d : Dev) (f : Fld) (i b : Nat) (v : Bool) : (d.putBit f i b v).wdn = d.wdn := rfl
@[simp] theorem Dev.putBit_free (d : Dev) (f : Fld) (i b : Nat) (v : Bool) : (d.putBit f i b v).free = d.free := rfl

/-! ### `Dev.put2` -/
@[simp] theorem Dev.put2_clk (d : Dev) (f : Fld) (k v : Nat) : (d.put2 f k v).clk = d.clk := rfl
@[simp] theorem Dev.put2_sys (d : Dev) (f : Fld) (k v : Nat) : (d.put2 f k v).sys = d.sys := rfl
@[simp] theorem Dev.put2_img (d : Dev) (f : Fld) (k v : Nat) : (d.put2 f k v).img = d.img := rfl
@[simp] theorem Dev.put2_gey (d : Dev) (f : Fld) (k v : Nat) : (d.put2 f k v).gey = d.gey := rfl
@[simp] theorem Dev.put2_legs (d : Dev) (f : Fld) (k v : Nat) : (d.put2 f k v).legs = d.legs := rfl
@[simp] theorem Dev.put2_brakes (d : Dev) (f : Fld) (k v : Nat) : (d.put2 f k v).brakes = d.brakes := rfl
@[simp] theorem Dev.put2_vent (d : Dev) (f : Fld) (k v : Nat) : (d.put2 f k v).vent = d.vent := rfl
@[simp] theorem Dev.put2_link (d : Dev) (f : Fld) (k v : Nat) : (d.put2 f k v).link = d.link := rfl
@[simp] theorem Dev.put2_tap (d : Dev) (f : Fld) (k v : Nat) : (d.put2 f k v).tap = d.tap := rfl
@[simp] theorem Dev.put2_axes (d : Dev) (f : Fld) (k v : Nat) : (d.put2 f k v).axes = d.axes := rfl
@[simp] theorem Dev.put2_banks (d : Dev) (f : Fld) (k v : Nat) : (d.put2 f k v).banks = d.banks := rfl
@[simp] theorem Dev.put2_accs (d : Dev) (f : Fld) (k v : Nat) : (d.put2 f k v).accs = d.accs := rfl
@[simp] theorem Dev.put2_fbks (d : Dev) (f : Fld) (k v : Nat) : (d.put2 f k v).fbks = d.fbks := rfl
@[simp] theorem Dev.put2_cor (d : Dev) (f : Fld) (k v : Nat) : (d.put2 f k v).cor = d.cor := rfl
@[simp] theorem Dev.put2_axLive (d : Dev) (f : Fld) (k v : Nat) : (d.put2 f k v).axLive = d.axLive := rfl
@[simp] theorem Dev.put2_engs (d : Dev) (f : Fld) (k v : Nat) : (d.put2 f k v).engs = d.engs := rfl
@[simp] theorem Dev.put2_patrol (d : Dev) (f : Fld) (k v : Nat) : (d.put2 f k v).patrol = d.patrol := rfl
@[simp] theorem Dev.put2_jnl (d : Dev) (f : Fld) (k v : Nat) : (d.put2 f k v).jnl = d.jnl := rfl
@[simp] theorem Dev.put2_con (d : Dev) (f : Fld) (k v : Nat) : (d.put2 f k v).con = d.con := rfl
@[simp] theorem Dev.put2_can (d : Dev) (f : Fld) (k v : Nat) : (d.put2 f k v).can = d.can := rfl
@[simp] theorem Dev.put2_host (d : Dev) (f : Fld) (k v : Nat) : (d.put2 f k v).host = d.host := rfl
@[simp] theorem Dev.put2_wdn (d : Dev) (f : Fld) (k v : Nat) : (d.put2 f k v).wdn = d.wdn := rfl
@[simp] theorem Dev.put2_free (d : Dev) (f : Fld) (k v : Nat) : (d.put2 f k v).free = d.free := rfl

/-! ### `Dev.setCst` -/
@[simp] theorem Dev.setCst_clk (d : Dev) (k : Nat) (a : Auth) : (d.setCst k a).clk = d.clk := rfl
@[simp] theorem Dev.setCst_sys (d : Dev) (k : Nat) (a : Auth) : (d.setCst k a).sys = d.sys := rfl
@[simp] theorem Dev.setCst_img (d : Dev) (k : Nat) (a : Auth) : (d.setCst k a).img = d.img := rfl
@[simp] theorem Dev.setCst_gey (d : Dev) (k : Nat) (a : Auth) : (d.setCst k a).gey = d.gey := rfl
@[simp] theorem Dev.setCst_legs (d : Dev) (k : Nat) (a : Auth) : (d.setCst k a).legs = d.legs := rfl
@[simp] theorem Dev.setCst_brakes (d : Dev) (k : Nat) (a : Auth) : (d.setCst k a).brakes = d.brakes := rfl
@[simp] theorem Dev.setCst_vent (d : Dev) (k : Nat) (a : Auth) : (d.setCst k a).vent = d.vent := rfl
@[simp] theorem Dev.setCst_link (d : Dev) (k : Nat) (a : Auth) : (d.setCst k a).link = d.link := rfl
@[simp] theorem Dev.setCst_tap (d : Dev) (k : Nat) (a : Auth) : (d.setCst k a).tap = d.tap := rfl
@[simp] theorem Dev.setCst_axes (d : Dev) (k : Nat) (a : Auth) : (d.setCst k a).axes = d.axes := rfl
@[simp] theorem Dev.setCst_banks (d : Dev) (k : Nat) (a : Auth) : (d.setCst k a).banks = d.banks := rfl
@[simp] theorem Dev.setCst_accs (d : Dev) (k : Nat) (a : Auth) : (d.setCst k a).accs = d.accs := rfl
@[simp] theorem Dev.setCst_fbks (d : Dev) (k : Nat) (a : Auth) : (d.setCst k a).fbks = d.fbks := rfl
@[simp] theorem Dev.setCst_cor (d : Dev) (k : Nat) (a : Auth) : (d.setCst k a).cor = d.cor := rfl
@[simp] theorem Dev.setCst_axLive (d : Dev) (k : Nat) (a : Auth) : (d.setCst k a).axLive = d.axLive := rfl
@[simp] theorem Dev.setCst_engs (d : Dev) (k : Nat) (a : Auth) : (d.setCst k a).engs = d.engs := rfl
@[simp] theorem Dev.setCst_patrol (d : Dev) (k : Nat) (a : Auth) : (d.setCst k a).patrol = d.patrol := rfl
@[simp] theorem Dev.setCst_jnl (d : Dev) (k : Nat) (a : Auth) : (d.setCst k a).jnl = d.jnl := rfl
@[simp] theorem Dev.setCst_con (d : Dev) (k : Nat) (a : Auth) : (d.setCst k a).con = d.con := rfl
@[simp] theorem Dev.setCst_can (d : Dev) (k : Nat) (a : Auth) : (d.setCst k a).can = d.can := rfl
@[simp] theorem Dev.setCst_host (d : Dev) (k : Nat) (a : Auth) : (d.setCst k a).host = d.host := rfl
@[simp] theorem Dev.setCst_wdn (d : Dev) (k : Nat) (a : Auth) : (d.setCst k a).wdn = d.wdn := rfl
@[simp] theorem Dev.setCst_free (d : Dev) (k : Nat) (a : Auth) : (d.setCst k a).free = d.free := rfl

/-! ### `Dev.setVst` -/
@[simp] theorem Dev.setVst_clk (d : Dev) (k : Nat) (a : Auth) : (d.setVst k a).clk = d.clk := rfl
@[simp] theorem Dev.setVst_sys (d : Dev) (k : Nat) (a : Auth) : (d.setVst k a).sys = d.sys := rfl
@[simp] theorem Dev.setVst_img (d : Dev) (k : Nat) (a : Auth) : (d.setVst k a).img = d.img := rfl
@[simp] theorem Dev.setVst_gey (d : Dev) (k : Nat) (a : Auth) : (d.setVst k a).gey = d.gey := rfl
@[simp] theorem Dev.setVst_legs (d : Dev) (k : Nat) (a : Auth) : (d.setVst k a).legs = d.legs := rfl
@[simp] theorem Dev.setVst_brakes (d : Dev) (k : Nat) (a : Auth) : (d.setVst k a).brakes = d.brakes := rfl
@[simp] theorem Dev.setVst_vent (d : Dev) (k : Nat) (a : Auth) : (d.setVst k a).vent = d.vent := rfl
@[simp] theorem Dev.setVst_link (d : Dev) (k : Nat) (a : Auth) : (d.setVst k a).link = d.link := rfl
@[simp] theorem Dev.setVst_tap (d : Dev) (k : Nat) (a : Auth) : (d.setVst k a).tap = d.tap := rfl
@[simp] theorem Dev.setVst_axes (d : Dev) (k : Nat) (a : Auth) : (d.setVst k a).axes = d.axes := rfl
@[simp] theorem Dev.setVst_banks (d : Dev) (k : Nat) (a : Auth) : (d.setVst k a).banks = d.banks := rfl
@[simp] theorem Dev.setVst_accs (d : Dev) (k : Nat) (a : Auth) : (d.setVst k a).accs = d.accs := rfl
@[simp] theorem Dev.setVst_fbks (d : Dev) (k : Nat) (a : Auth) : (d.setVst k a).fbks = d.fbks := rfl
@[simp] theorem Dev.setVst_cor (d : Dev) (k : Nat) (a : Auth) : (d.setVst k a).cor = d.cor := rfl
@[simp] theorem Dev.setVst_axLive (d : Dev) (k : Nat) (a : Auth) : (d.setVst k a).axLive = d.axLive := rfl
@[simp] theorem Dev.setVst_engs (d : Dev) (k : Nat) (a : Auth) : (d.setVst k a).engs = d.engs := rfl
@[simp] theorem Dev.setVst_patrol (d : Dev) (k : Nat) (a : Auth) : (d.setVst k a).patrol = d.patrol := rfl
@[simp] theorem Dev.setVst_jnl (d : Dev) (k : Nat) (a : Auth) : (d.setVst k a).jnl = d.jnl := rfl
@[simp] theorem Dev.setVst_con (d : Dev) (k : Nat) (a : Auth) : (d.setVst k a).con = d.con := rfl
@[simp] theorem Dev.setVst_can (d : Dev) (k : Nat) (a : Auth) : (d.setVst k a).can = d.can := rfl
@[simp] theorem Dev.setVst_host (d : Dev) (k : Nat) (a : Auth) : (d.setVst k a).host = d.host := rfl
@[simp] theorem Dev.setVst_wdn (d : Dev) (k : Nat) (a : Auth) : (d.setVst k a).wdn = d.wdn := rfl
@[simp] theorem Dev.setVst_free (d : Dev) (k : Nat) (a : Auth) : (d.setVst k a).free = d.free := rfl

/-! ### `Dev.raise` -/
@[simp] theorem Dev.raise_clk (d : Dev) (n : Nat) : (d.raise n).clk = d.clk := rfl
@[simp] theorem Dev.raise_sys (d : Dev) (n : Nat) : (d.raise n).sys = d.sys := rfl
@[simp] theorem Dev.raise_img (d : Dev) (n : Nat) : (d.raise n).img = d.img := rfl
@[simp] theorem Dev.raise_gey (d : Dev) (n : Nat) : (d.raise n).gey = d.gey := rfl
@[simp] theorem Dev.raise_legs (d : Dev) (n : Nat) : (d.raise n).legs = d.legs := rfl
@[simp] theorem Dev.raise_brakes (d : Dev) (n : Nat) : (d.raise n).brakes = d.brakes := rfl
@[simp] theorem Dev.raise_vent (d : Dev) (n : Nat) : (d.raise n).vent = d.vent := rfl
@[simp] theorem Dev.raise_link (d : Dev) (n : Nat) : (d.raise n).link = d.link := rfl
@[simp] theorem Dev.raise_tap (d : Dev) (n : Nat) : (d.raise n).tap = d.tap := rfl
@[simp] theorem Dev.raise_axes (d : Dev) (n : Nat) : (d.raise n).axes = d.axes := rfl
@[simp] theorem Dev.raise_banks (d : Dev) (n : Nat) : (d.raise n).banks = d.banks := rfl
@[simp] theorem Dev.raise_accs (d : Dev) (n : Nat) : (d.raise n).accs = d.accs := rfl
@[simp] theorem Dev.raise_fbks (d : Dev) (n : Nat) : (d.raise n).fbks = d.fbks := rfl
@[simp] theorem Dev.raise_cor (d : Dev) (n : Nat) : (d.raise n).cor = d.cor := rfl
@[simp] theorem Dev.raise_axLive (d : Dev) (n : Nat) : (d.raise n).axLive = d.axLive := rfl
@[simp] theorem Dev.raise_engs (d : Dev) (n : Nat) : (d.raise n).engs = d.engs := rfl
@[simp] theorem Dev.raise_patrol (d : Dev) (n : Nat) : (d.raise n).patrol = d.patrol := rfl
@[simp] theorem Dev.raise_jnl (d : Dev) (n : Nat) : (d.raise n).jnl = d.jnl := rfl
@[simp] theorem Dev.raise_con (d : Dev) (n : Nat) : (d.raise n).con = d.con := rfl
@[simp] theorem Dev.raise_can (d : Dev) (n : Nat) : (d.raise n).can = d.can := rfl
@[simp] theorem Dev.raise_host (d : Dev) (n : Nat) : (d.raise n).host = d.host := rfl
@[simp] theorem Dev.raise_wdn (d : Dev) (n : Nat) : (d.raise n).wdn = d.wdn := rfl
@[simp] theorem Dev.raise_free (d : Dev) (n : Nat) : (d.raise n).free = d.free := rfl

/-! ### `Dev.tick1` -/
@[simp] theorem Dev.tick1_regs (d : Dev) : (d.tick1).regs = d.regs := rfl
@[simp] theorem Dev.tick1_clk (d : Dev) : (d.tick1).clk = d.clk := rfl
@[simp] theorem Dev.tick1_sys (d : Dev) : (d.tick1).sys = d.sys := rfl
@[simp] theorem Dev.tick1_img (d : Dev) : (d.tick1).img = d.img := rfl
@[simp] theorem Dev.tick1_gey (d : Dev) : (d.tick1).gey = d.gey := rfl
@[simp] theorem Dev.tick1_legs (d : Dev) : (d.tick1).legs = d.legs := rfl
@[simp] theorem Dev.tick1_brakes (d : Dev) : (d.tick1).brakes = d.brakes := rfl
@[simp] theorem Dev.tick1_vent (d : Dev) : (d.tick1).vent = d.vent := rfl
@[simp] theorem Dev.tick1_link (d : Dev) : (d.tick1).link = d.link := rfl
@[simp] theorem Dev.tick1_tap (d : Dev) : (d.tick1).tap = d.tap := rfl
@[simp] theorem Dev.tick1_axes (d : Dev) : (d.tick1).axes = d.axes := rfl
@[simp] theorem Dev.tick1_banks (d : Dev) : (d.tick1).banks = d.banks := rfl
@[simp] theorem Dev.tick1_accs (d : Dev) : (d.tick1).accs = d.accs := rfl
@[simp] theorem Dev.tick1_fbks (d : Dev) : (d.tick1).fbks = d.fbks := rfl
@[simp] theorem Dev.tick1_cor (d : Dev) : (d.tick1).cor = d.cor := rfl
@[simp] theorem Dev.tick1_axLive (d : Dev) : (d.tick1).axLive = d.axLive := rfl
@[simp] theorem Dev.tick1_engs (d : Dev) : (d.tick1).engs = d.engs := rfl
@[simp] theorem Dev.tick1_patrol (d : Dev) : (d.tick1).patrol = d.patrol := rfl
@[simp] theorem Dev.tick1_jnl (d : Dev) : (d.tick1).jnl = d.jnl := rfl
@[simp] theorem Dev.tick1_con (d : Dev) : (d.tick1).con = d.con := rfl
@[simp] theorem Dev.tick1_can (d : Dev) : (d.tick1).can = d.can := rfl
@[simp] theorem Dev.tick1_host (d : Dev) : (d.tick1).host = d.host := rfl
@[simp] theorem Dev.tick1_wdn (d : Dev) : (d.tick1).wdn = d.wdn := rfl

/-! ### `Dev.setCal` -/
@[simp] theorem Dev.setCal_regs (d : Dev) (a : Nat) (w : Word) : (d.setCal a w).regs = d.regs := rfl
@[simp] theorem Dev.setCal_clk (d : Dev) (a : Nat) (w : Word) : (d.setCal a w).clk = d.clk := rfl
@[simp] theorem Dev.setCal_sys (d : Dev) (a : Nat) (w : Word) : (d.setCal a w).sys = d.sys := rfl
@[simp] theorem Dev.setCal_img (d : Dev) (a : Nat) (w : Word) : (d.setCal a w).img = d.img := rfl
@[simp] theorem Dev.setCal_gey (d : Dev) (a : Nat) (w : Word) : (d.setCal a w).gey = d.gey := rfl
@[simp] theorem Dev.setCal_legs (d : Dev) (a : Nat) (w : Word) : (d.setCal a w).legs = d.legs := rfl
@[simp] theorem Dev.setCal_brakes (d : Dev) (a : Nat) (w : Word) : (d.setCal a w).brakes = d.brakes := rfl
@[simp] theorem Dev.setCal_vent (d : Dev) (a : Nat) (w : Word) : (d.setCal a w).vent = d.vent := rfl
@[simp] theorem Dev.setCal_link (d : Dev) (a : Nat) (w : Word) : (d.setCal a w).link = d.link := rfl
@[simp] theorem Dev.setCal_tap (d : Dev) (a : Nat) (w : Word) : (d.setCal a w).tap = d.tap := rfl
@[simp] theorem Dev.setCal_axes (d : Dev) (a : Nat) (w : Word) : (d.setCal a w).axes = d.axes := rfl
@[simp] theorem Dev.setCal_banks (d : Dev) (a : Nat) (w : Word) : (d.setCal a w).banks = d.banks := rfl
@[simp] theorem Dev.setCal_accs (d : Dev) (a : Nat) (w : Word) : (d.setCal a w).accs = d.accs := rfl
@[simp] theorem Dev.setCal_fbks (d : Dev) (a : Nat) (w : Word) : (d.setCal a w).fbks = d.fbks := rfl
@[simp] theorem Dev.setCal_cor (d : Dev) (a : Nat) (w : Word) : (d.setCal a w).cor = d.cor := rfl
@[simp] theorem Dev.setCal_axLive (d : Dev) (a : Nat) (w : Word) : (d.setCal a w).axLive = d.axLive := rfl
@[simp] theorem Dev.setCal_engs (d : Dev) (a : Nat) (w : Word) : (d.setCal a w).engs = d.engs := rfl
@[simp] theorem Dev.setCal_patrol (d : Dev) (a : Nat) (w : Word) : (d.setCal a w).patrol = d.patrol := rfl
@[simp] theorem Dev.setCal_jnl (d : Dev) (a : Nat) (w : Word) : (d.setCal a w).jnl = d.jnl := rfl
@[simp] theorem Dev.setCal_can (d : Dev) (a : Nat) (w : Word) : (d.setCal a w).can = d.can := rfl
@[simp] theorem Dev.setCal_host (d : Dev) (a : Nat) (w : Word) : (d.setCal a w).host = d.host := rfl
@[simp] theorem Dev.setCal_wdn (d : Dev) (a : Nat) (w : Word) : (d.setCal a w).wdn = d.wdn := rfl
@[simp] theorem Dev.setCal_free (d : Dev) (a : Nat) (w : Word) : (d.setCal a w).free = d.free := rfl

/-! ### `Dev.modLeg` -/
@[simp] theorem Dev.modLeg_regs (d : Dev) (l : Nat) (f : LegUnit → LegUnit) : (d.modLeg l f).regs = d.regs := rfl
@[simp] theorem Dev.modLeg_clk (d : Dev) (l : Nat) (f : LegUnit → LegUnit) : (d.modLeg l f).clk = d.clk := rfl
@[simp] theorem Dev.modLeg_sys (d : Dev) (l : Nat) (f : LegUnit → LegUnit) : (d.modLeg l f).sys = d.sys := rfl
@[simp] theorem Dev.modLeg_img (d : Dev) (l : Nat) (f : LegUnit → LegUnit) : (d.modLeg l f).img = d.img := rfl
@[simp] theorem Dev.modLeg_gey (d : Dev) (l : Nat) (f : LegUnit → LegUnit) : (d.modLeg l f).gey = d.gey := rfl
@[simp] theorem Dev.modLeg_brakes (d : Dev) (l : Nat) (f : LegUnit → LegUnit) : (d.modLeg l f).brakes = d.brakes := rfl
@[simp] theorem Dev.modLeg_vent (d : Dev) (l : Nat) (f : LegUnit → LegUnit) : (d.modLeg l f).vent = d.vent := rfl
@[simp] theorem Dev.modLeg_link (d : Dev) (l : Nat) (f : LegUnit → LegUnit) : (d.modLeg l f).link = d.link := rfl
@[simp] theorem Dev.modLeg_tap (d : Dev) (l : Nat) (f : LegUnit → LegUnit) : (d.modLeg l f).tap = d.tap := rfl
@[simp] theorem Dev.modLeg_axes (d : Dev) (l : Nat) (f : LegUnit → LegUnit) : (d.modLeg l f).axes = d.axes := rfl
@[simp] theorem Dev.modLeg_banks (d : Dev) (l : Nat) (f : LegUnit → LegUnit) : (d.modLeg l f).banks = d.banks := rfl
@[simp] theorem Dev.modLeg_accs (d : Dev) (l : Nat) (f : LegUnit → LegUnit) : (d.modLeg l f).accs = d.accs := rfl
@[simp] theorem Dev.modLeg_fbks (d : Dev) (l : Nat) (f : LegUnit → LegUnit) : (d.modLeg l f).fbks = d.fbks := rfl
@[simp] theorem Dev.modLeg_cor (d : Dev) (l : Nat) (f : LegUnit → LegUnit) : (d.modLeg l f).cor = d.cor := rfl
@[simp] theorem Dev.modLeg_axLive (d : Dev) (l : Nat) (f : LegUnit → LegUnit) : (d.modLeg l f).axLive = d.axLive := rfl
@[simp] theorem Dev.modLeg_engs (d : Dev) (l : Nat) (f : LegUnit → LegUnit) : (d.modLeg l f).engs = d.engs := rfl
@[simp] theorem Dev.modLeg_patrol (d : Dev) (l : Nat) (f : LegUnit → LegUnit) : (d.modLeg l f).patrol = d.patrol := rfl
@[simp] theorem Dev.modLeg_jnl (d : Dev) (l : Nat) (f : LegUnit → LegUnit) : (d.modLeg l f).jnl = d.jnl := rfl
@[simp] theorem Dev.modLeg_con (d : Dev) (l : Nat) (f : LegUnit → LegUnit) : (d.modLeg l f).con = d.con := rfl
@[simp] theorem Dev.modLeg_can (d : Dev) (l : Nat) (f : LegUnit → LegUnit) : (d.modLeg l f).can = d.can := rfl
@[simp] theorem Dev.modLeg_host (d : Dev) (l : Nat) (f : LegUnit → LegUnit) : (d.modLeg l f).host = d.host := rfl
@[simp] theorem Dev.modLeg_wdn (d : Dev) (l : Nat) (f : LegUnit → LegUnit) : (d.modLeg l f).wdn = d.wdn := rfl
@[simp] theorem Dev.modLeg_free (d : Dev) (l : Nat) (f : LegUnit → LegUnit) : (d.modLeg l f).free = d.free := rfl

/-! ### `Dev.modBrk` -/
@[simp] theorem Dev.modBrk_regs (d : Dev) (b : Nat) (f : BrakeUnit → BrakeUnit) : (d.modBrk b f).regs = d.regs := rfl
@[simp] theorem Dev.modBrk_clk (d : Dev) (b : Nat) (f : BrakeUnit → BrakeUnit) : (d.modBrk b f).clk = d.clk := rfl
@[simp] theorem Dev.modBrk_sys (d : Dev) (b : Nat) (f : BrakeUnit → BrakeUnit) : (d.modBrk b f).sys = d.sys := rfl
@[simp] theorem Dev.modBrk_img (d : Dev) (b : Nat) (f : BrakeUnit → BrakeUnit) : (d.modBrk b f).img = d.img := rfl
@[simp] theorem Dev.modBrk_gey (d : Dev) (b : Nat) (f : BrakeUnit → BrakeUnit) : (d.modBrk b f).gey = d.gey := rfl
@[simp] theorem Dev.modBrk_legs (d : Dev) (b : Nat) (f : BrakeUnit → BrakeUnit) : (d.modBrk b f).legs = d.legs := rfl
@[simp] theorem Dev.modBrk_vent (d : Dev) (b : Nat) (f : BrakeUnit → BrakeUnit) : (d.modBrk b f).vent = d.vent := rfl
@[simp] theorem Dev.modBrk_link (d : Dev) (b : Nat) (f : BrakeUnit → BrakeUnit) : (d.modBrk b f).link = d.link := rfl
@[simp] theorem Dev.modBrk_tap (d : Dev) (b : Nat) (f : BrakeUnit → BrakeUnit) : (d.modBrk b f).tap = d.tap := rfl
@[simp] theorem Dev.modBrk_axes (d : Dev) (b : Nat) (f : BrakeUnit → BrakeUnit) : (d.modBrk b f).axes = d.axes := rfl
@[simp] theorem Dev.modBrk_banks (d : Dev) (b : Nat) (f : BrakeUnit → BrakeUnit) : (d.modBrk b f).banks = d.banks := rfl
@[simp] theorem Dev.modBrk_accs (d : Dev) (b : Nat) (f : BrakeUnit → BrakeUnit) : (d.modBrk b f).accs = d.accs := rfl
@[simp] theorem Dev.modBrk_fbks (d : Dev) (b : Nat) (f : BrakeUnit → BrakeUnit) : (d.modBrk b f).fbks = d.fbks := rfl
@[simp] theorem Dev.modBrk_cor (d : Dev) (b : Nat) (f : BrakeUnit → BrakeUnit) : (d.modBrk b f).cor = d.cor := rfl
@[simp] theorem Dev.modBrk_axLive (d : Dev) (b : Nat) (f : BrakeUnit → BrakeUnit) : (d.modBrk b f).axLive = d.axLive := rfl
@[simp] theorem Dev.modBrk_engs (d : Dev) (b : Nat) (f : BrakeUnit → BrakeUnit) : (d.modBrk b f).engs = d.engs := rfl
@[simp] theorem Dev.modBrk_patrol (d : Dev) (b : Nat) (f : BrakeUnit → BrakeUnit) : (d.modBrk b f).patrol = d.patrol := rfl
@[simp] theorem Dev.modBrk_jnl (d : Dev) (b : Nat) (f : BrakeUnit → BrakeUnit) : (d.modBrk b f).jnl = d.jnl := rfl
@[simp] theorem Dev.modBrk_con (d : Dev) (b : Nat) (f : BrakeUnit → BrakeUnit) : (d.modBrk b f).con = d.con := rfl
@[simp] theorem Dev.modBrk_can (d : Dev) (b : Nat) (f : BrakeUnit → BrakeUnit) : (d.modBrk b f).can = d.can := rfl
@[simp] theorem Dev.modBrk_host (d : Dev) (b : Nat) (f : BrakeUnit → BrakeUnit) : (d.modBrk b f).host = d.host := rfl
@[simp] theorem Dev.modBrk_wdn (d : Dev) (b : Nat) (f : BrakeUnit → BrakeUnit) : (d.modBrk b f).wdn = d.wdn := rfl
@[simp] theorem Dev.modBrk_free (d : Dev) (b : Nat) (f : BrakeUnit → BrakeUnit) : (d.modBrk b f).free = d.free := rfl

/-! ### `Dev.modAxis` -/
@[simp] theorem Dev.modAxis_regs (d : Dev) (k : Nat) (f : AxisUnit → AxisUnit) : (d.modAxis k f).regs = d.regs := rfl
@[simp] theorem Dev.modAxis_clk (d : Dev) (k : Nat) (f : AxisUnit → AxisUnit) : (d.modAxis k f).clk = d.clk := rfl
@[simp] theorem Dev.modAxis_sys (d : Dev) (k : Nat) (f : AxisUnit → AxisUnit) : (d.modAxis k f).sys = d.sys := rfl
@[simp] theorem Dev.modAxis_img (d : Dev) (k : Nat) (f : AxisUnit → AxisUnit) : (d.modAxis k f).img = d.img := rfl
@[simp] theorem Dev.modAxis_gey (d : Dev) (k : Nat) (f : AxisUnit → AxisUnit) : (d.modAxis k f).gey = d.gey := rfl
@[simp] theorem Dev.modAxis_legs (d : Dev) (k : Nat) (f : AxisUnit → AxisUnit) : (d.modAxis k f).legs = d.legs := rfl
@[simp] theorem Dev.modAxis_brakes (d : Dev) (k : Nat) (f : AxisUnit → AxisUnit) : (d.modAxis k f).brakes = d.brakes := rfl
@[simp] theorem Dev.modAxis_vent (d : Dev) (k : Nat) (f : AxisUnit → AxisUnit) : (d.modAxis k f).vent = d.vent := rfl
@[simp] theorem Dev.modAxis_link (d : Dev) (k : Nat) (f : AxisUnit → AxisUnit) : (d.modAxis k f).link = d.link := rfl
@[simp] theorem Dev.modAxis_tap (d : Dev) (k : Nat) (f : AxisUnit → AxisUnit) : (d.modAxis k f).tap = d.tap := rfl
@[simp] theorem Dev.modAxis_banks (d : Dev) (k : Nat) (f : AxisUnit → AxisUnit) : (d.modAxis k f).banks = d.banks := rfl
@[simp] theorem Dev.modAxis_accs (d : Dev) (k : Nat) (f : AxisUnit → AxisUnit) : (d.modAxis k f).accs = d.accs := rfl
@[simp] theorem Dev.modAxis_fbks (d : Dev) (k : Nat) (f : AxisUnit → AxisUnit) : (d.modAxis k f).fbks = d.fbks := rfl
@[simp] theorem Dev.modAxis_cor (d : Dev) (k : Nat) (f : AxisUnit → AxisUnit) : (d.modAxis k f).cor = d.cor := rfl
@[simp] theorem Dev.modAxis_axLive (d : Dev) (k : Nat) (f : AxisUnit → AxisUnit) : (d.modAxis k f).axLive = d.axLive := rfl
@[simp] theorem Dev.modAxis_engs (d : Dev) (k : Nat) (f : AxisUnit → AxisUnit) : (d.modAxis k f).engs = d.engs := rfl
@[simp] theorem Dev.modAxis_patrol (d : Dev) (k : Nat) (f : AxisUnit → AxisUnit) : (d.modAxis k f).patrol = d.patrol := rfl
@[simp] theorem Dev.modAxis_jnl (d : Dev) (k : Nat) (f : AxisUnit → AxisUnit) : (d.modAxis k f).jnl = d.jnl := rfl
@[simp] theorem Dev.modAxis_con (d : Dev) (k : Nat) (f : AxisUnit → AxisUnit) : (d.modAxis k f).con = d.con := rfl
@[simp] theorem Dev.modAxis_can (d : Dev) (k : Nat) (f : AxisUnit → AxisUnit) : (d.modAxis k f).can = d.can := rfl
@[simp] theorem Dev.modAxis_host (d : Dev) (k : Nat) (f : AxisUnit → AxisUnit) : (d.modAxis k f).host = d.host := rfl
@[simp] theorem Dev.modAxis_wdn (d : Dev) (k : Nat) (f : AxisUnit → AxisUnit) : (d.modAxis k f).wdn = d.wdn := rfl
@[simp] theorem Dev.modAxis_free (d : Dev) (k : Nat) (f : AxisUnit → AxisUnit) : (d.modAxis k f).free = d.free := rfl

/-! ### `Dev.modComm` -/
@[simp] theorem Dev.modComm_regs (d : Dev) (k : Nat) (f : CommUnit → CommUnit) : (d.modComm k f).regs = d.regs := rfl
@[simp] theorem Dev.modComm_clk (d : Dev) (k : Nat) (f : CommUnit → CommUnit) : (d.modComm k f).clk = d.clk := rfl
@[simp] theorem Dev.modComm_sys (d : Dev) (k : Nat) (f : CommUnit → CommUnit) : (d.modComm k f).sys = d.sys := rfl
@[simp] theorem Dev.modComm_img (d : Dev) (k : Nat) (f : CommUnit → CommUnit) : (d.modComm k f).img = d.img := rfl
@[simp] theorem Dev.modComm_gey (d : Dev) (k : Nat) (f : CommUnit → CommUnit) : (d.modComm k f).gey = d.gey := rfl
@[simp] theorem Dev.modComm_legs (d : Dev) (k : Nat) (f : CommUnit → CommUnit) : (d.modComm k f).legs = d.legs := rfl
@[simp] theorem Dev.modComm_brakes (d : Dev) (k : Nat) (f : CommUnit → CommUnit) : (d.modComm k f).brakes = d.brakes := rfl
@[simp] theorem Dev.modComm_vent (d : Dev) (k : Nat) (f : CommUnit → CommUnit) : (d.modComm k f).vent = d.vent := rfl
@[simp] theorem Dev.modComm_link (d : Dev) (k : Nat) (f : CommUnit → CommUnit) : (d.modComm k f).link = d.link := rfl
@[simp] theorem Dev.modComm_tap (d : Dev) (k : Nat) (f : CommUnit → CommUnit) : (d.modComm k f).tap = d.tap := rfl
@[simp] theorem Dev.modComm_banks (d : Dev) (k : Nat) (f : CommUnit → CommUnit) : (d.modComm k f).banks = d.banks := rfl
@[simp] theorem Dev.modComm_accs (d : Dev) (k : Nat) (f : CommUnit → CommUnit) : (d.modComm k f).accs = d.accs := rfl
@[simp] theorem Dev.modComm_fbks (d : Dev) (k : Nat) (f : CommUnit → CommUnit) : (d.modComm k f).fbks = d.fbks := rfl
@[simp] theorem Dev.modComm_cor (d : Dev) (k : Nat) (f : CommUnit → CommUnit) : (d.modComm k f).cor = d.cor := rfl
@[simp] theorem Dev.modComm_axLive (d : Dev) (k : Nat) (f : CommUnit → CommUnit) : (d.modComm k f).axLive = d.axLive := rfl
@[simp] theorem Dev.modComm_engs (d : Dev) (k : Nat) (f : CommUnit → CommUnit) : (d.modComm k f).engs = d.engs := rfl
@[simp] theorem Dev.modComm_patrol (d : Dev) (k : Nat) (f : CommUnit → CommUnit) : (d.modComm k f).patrol = d.patrol := rfl
@[simp] theorem Dev.modComm_jnl (d : Dev) (k : Nat) (f : CommUnit → CommUnit) : (d.modComm k f).jnl = d.jnl := rfl
@[simp] theorem Dev.modComm_con (d : Dev) (k : Nat) (f : CommUnit → CommUnit) : (d.modComm k f).con = d.con := rfl
@[simp] theorem Dev.modComm_can (d : Dev) (k : Nat) (f : CommUnit → CommUnit) : (d.modComm k f).can = d.can := rfl
@[simp] theorem Dev.modComm_host (d : Dev) (k : Nat) (f : CommUnit → CommUnit) : (d.modComm k f).host = d.host := rfl
@[simp] theorem Dev.modComm_wdn (d : Dev) (k : Nat) (f : CommUnit → CommUnit) : (d.modComm k f).wdn = d.wdn := rfl
@[simp] theorem Dev.modComm_free (d : Dev) (k : Nat) (f : CommUnit → CommUnit) : (d.modComm k f).free = d.free := rfl

/-! ### `Dev.modBank` -/
@[simp] theorem Dev.modBank_regs (d : Dev) (b : Nat) (f : BankUnit → BankUnit) : (d.modBank b f).regs = d.regs := rfl
@[simp] theorem Dev.modBank_clk (d : Dev) (b : Nat) (f : BankUnit → BankUnit) : (d.modBank b f).clk = d.clk := rfl
@[simp] theorem Dev.modBank_sys (d : Dev) (b : Nat) (f : BankUnit → BankUnit) : (d.modBank b f).sys = d.sys := rfl
@[simp] theorem Dev.modBank_img (d : Dev) (b : Nat) (f : BankUnit → BankUnit) : (d.modBank b f).img = d.img := rfl
@[simp] theorem Dev.modBank_gey (d : Dev) (b : Nat) (f : BankUnit → BankUnit) : (d.modBank b f).gey = d.gey := rfl
@[simp] theorem Dev.modBank_legs (d : Dev) (b : Nat) (f : BankUnit → BankUnit) : (d.modBank b f).legs = d.legs := rfl
@[simp] theorem Dev.modBank_brakes (d : Dev) (b : Nat) (f : BankUnit → BankUnit) : (d.modBank b f).brakes = d.brakes := rfl
@[simp] theorem Dev.modBank_vent (d : Dev) (b : Nat) (f : BankUnit → BankUnit) : (d.modBank b f).vent = d.vent := rfl
@[simp] theorem Dev.modBank_link (d : Dev) (b : Nat) (f : BankUnit → BankUnit) : (d.modBank b f).link = d.link := rfl
@[simp] theorem Dev.modBank_tap (d : Dev) (b : Nat) (f : BankUnit → BankUnit) : (d.modBank b f).tap = d.tap := rfl
@[simp] theorem Dev.modBank_axes (d : Dev) (b : Nat) (f : BankUnit → BankUnit) : (d.modBank b f).axes = d.axes := rfl
@[simp] theorem Dev.modBank_accs (d : Dev) (b : Nat) (f : BankUnit → BankUnit) : (d.modBank b f).accs = d.accs := rfl
@[simp] theorem Dev.modBank_fbks (d : Dev) (b : Nat) (f : BankUnit → BankUnit) : (d.modBank b f).fbks = d.fbks := rfl
@[simp] theorem Dev.modBank_cor (d : Dev) (b : Nat) (f : BankUnit → BankUnit) : (d.modBank b f).cor = d.cor := rfl
@[simp] theorem Dev.modBank_axLive (d : Dev) (b : Nat) (f : BankUnit → BankUnit) : (d.modBank b f).axLive = d.axLive := rfl
@[simp] theorem Dev.modBank_engs (d : Dev) (b : Nat) (f : BankUnit → BankUnit) : (d.modBank b f).engs = d.engs := rfl
@[simp] theorem Dev.modBank_patrol (d : Dev) (b : Nat) (f : BankUnit → BankUnit) : (d.modBank b f).patrol = d.patrol := rfl
@[simp] theorem Dev.modBank_jnl (d : Dev) (b : Nat) (f : BankUnit → BankUnit) : (d.modBank b f).jnl = d.jnl := rfl
@[simp] theorem Dev.modBank_con (d : Dev) (b : Nat) (f : BankUnit → BankUnit) : (d.modBank b f).con = d.con := rfl
@[simp] theorem Dev.modBank_can (d : Dev) (b : Nat) (f : BankUnit → BankUnit) : (d.modBank b f).can = d.can := rfl
@[simp] theorem Dev.modBank_host (d : Dev) (b : Nat) (f : BankUnit → BankUnit) : (d.modBank b f).host = d.host := rfl
@[simp] theorem Dev.modBank_wdn (d : Dev) (b : Nat) (f : BankUnit → BankUnit) : (d.modBank b f).wdn = d.wdn := rfl
@[simp] theorem Dev.modBank_free (d : Dev) (b : Nat) (f : BankUnit → BankUnit) : (d.modBank b f).free = d.free := rfl

/-! ### `Dev.modAcc` -/
@[simp] theorem Dev.modAcc_regs (d : Dev) (n : Nat) (f : AccUnit → AccUnit) : (d.modAcc n f).regs = d.regs := rfl
@[simp] theorem Dev.modAcc_clk (d : Dev) (n : Nat) (f : AccUnit → AccUnit) : (d.modAcc n f).clk = d.clk := rfl
@[simp] theorem Dev.modAcc_sys (d : Dev) (n : Nat) (f : AccUnit → AccUnit) : (d.modAcc n f).sys = d.sys := rfl
@[simp] theorem Dev.modAcc_img (d : Dev) (n : Nat) (f : AccUnit → AccUnit) : (d.modAcc n f).img = d.img := rfl
@[simp] theorem Dev.modAcc_gey (d : Dev) (n : Nat) (f : AccUnit → AccUnit) : (d.modAcc n f).gey = d.gey := rfl
@[simp] theorem Dev.modAcc_legs (d : Dev) (n : Nat) (f : AccUnit → AccUnit) : (d.modAcc n f).legs = d.legs := rfl
@[simp] theorem Dev.modAcc_brakes (d : Dev) (n : Nat) (f : AccUnit → AccUnit) : (d.modAcc n f).brakes = d.brakes := rfl
@[simp] theorem Dev.modAcc_vent (d : Dev) (n : Nat) (f : AccUnit → AccUnit) : (d.modAcc n f).vent = d.vent := rfl
@[simp] theorem Dev.modAcc_link (d : Dev) (n : Nat) (f : AccUnit → AccUnit) : (d.modAcc n f).link = d.link := rfl
@[simp] theorem Dev.modAcc_tap (d : Dev) (n : Nat) (f : AccUnit → AccUnit) : (d.modAcc n f).tap = d.tap := rfl
@[simp] theorem Dev.modAcc_axes (d : Dev) (n : Nat) (f : AccUnit → AccUnit) : (d.modAcc n f).axes = d.axes := rfl
@[simp] theorem Dev.modAcc_banks (d : Dev) (n : Nat) (f : AccUnit → AccUnit) : (d.modAcc n f).banks = d.banks := rfl
@[simp] theorem Dev.modAcc_fbks (d : Dev) (n : Nat) (f : AccUnit → AccUnit) : (d.modAcc n f).fbks = d.fbks := rfl
@[simp] theorem Dev.modAcc_cor (d : Dev) (n : Nat) (f : AccUnit → AccUnit) : (d.modAcc n f).cor = d.cor := rfl
@[simp] theorem Dev.modAcc_axLive (d : Dev) (n : Nat) (f : AccUnit → AccUnit) : (d.modAcc n f).axLive = d.axLive := rfl
@[simp] theorem Dev.modAcc_engs (d : Dev) (n : Nat) (f : AccUnit → AccUnit) : (d.modAcc n f).engs = d.engs := rfl
@[simp] theorem Dev.modAcc_patrol (d : Dev) (n : Nat) (f : AccUnit → AccUnit) : (d.modAcc n f).patrol = d.patrol := rfl
@[simp] theorem Dev.modAcc_jnl (d : Dev) (n : Nat) (f : AccUnit → AccUnit) : (d.modAcc n f).jnl = d.jnl := rfl
@[simp] theorem Dev.modAcc_con (d : Dev) (n : Nat) (f : AccUnit → AccUnit) : (d.modAcc n f).con = d.con := rfl
@[simp] theorem Dev.modAcc_can (d : Dev) (n : Nat) (f : AccUnit → AccUnit) : (d.modAcc n f).can = d.can := rfl
@[simp] theorem Dev.modAcc_host (d : Dev) (n : Nat) (f : AccUnit → AccUnit) : (d.modAcc n f).host = d.host := rfl
@[simp] theorem Dev.modAcc_wdn (d : Dev) (n : Nat) (f : AccUnit → AccUnit) : (d.modAcc n f).wdn = d.wdn := rfl
@[simp] theorem Dev.modAcc_free (d : Dev) (n : Nat) (f : AccUnit → AccUnit) : (d.modAcc n f).free = d.free := rfl

/-! ### `Dev.modFbk` -/
@[simp] theorem Dev.modFbk_regs (d : Dev) (u : Nat) (f : FbkUnit → FbkUnit) : (d.modFbk u f).regs = d.regs := rfl
@[simp] theorem Dev.modFbk_clk (d : Dev) (u : Nat) (f : FbkUnit → FbkUnit) : (d.modFbk u f).clk = d.clk := rfl
@[simp] theorem Dev.modFbk_sys (d : Dev) (u : Nat) (f : FbkUnit → FbkUnit) : (d.modFbk u f).sys = d.sys := rfl
@[simp] theorem Dev.modFbk_img (d : Dev) (u : Nat) (f : FbkUnit → FbkUnit) : (d.modFbk u f).img = d.img := rfl
@[simp] theorem Dev.modFbk_gey (d : Dev) (u : Nat) (f : FbkUnit → FbkUnit) : (d.modFbk u f).gey = d.gey := rfl
@[simp] theorem Dev.modFbk_legs (d : Dev) (u : Nat) (f : FbkUnit → FbkUnit) : (d.modFbk u f).legs = d.legs := rfl
@[simp] theorem Dev.modFbk_brakes (d : Dev) (u : Nat) (f : FbkUnit → FbkUnit) : (d.modFbk u f).brakes = d.brakes := rfl
@[simp] theorem Dev.modFbk_vent (d : Dev) (u : Nat) (f : FbkUnit → FbkUnit) : (d.modFbk u f).vent = d.vent := rfl
@[simp] theorem Dev.modFbk_link (d : Dev) (u : Nat) (f : FbkUnit → FbkUnit) : (d.modFbk u f).link = d.link := rfl
@[simp] theorem Dev.modFbk_tap (d : Dev) (u : Nat) (f : FbkUnit → FbkUnit) : (d.modFbk u f).tap = d.tap := rfl
@[simp] theorem Dev.modFbk_axes (d : Dev) (u : Nat) (f : FbkUnit → FbkUnit) : (d.modFbk u f).axes = d.axes := rfl
@[simp] theorem Dev.modFbk_banks (d : Dev) (u : Nat) (f : FbkUnit → FbkUnit) : (d.modFbk u f).banks = d.banks := rfl
@[simp] theorem Dev.modFbk_accs (d : Dev) (u : Nat) (f : FbkUnit → FbkUnit) : (d.modFbk u f).accs = d.accs := rfl
@[simp] theorem Dev.modFbk_cor (d : Dev) (u : Nat) (f : FbkUnit → FbkUnit) : (d.modFbk u f).cor = d.cor := rfl
@[simp] theorem Dev.modFbk_axLive (d : Dev) (u : Nat) (f : FbkUnit → FbkUnit) : (d.modFbk u f).axLive = d.axLive := rfl
@[simp] theorem Dev.modFbk_engs (d : Dev) (u : Nat) (f : FbkUnit → FbkUnit) : (d.modFbk u f).engs = d.engs := rfl
@[simp] theorem Dev.modFbk_patrol (d : Dev) (u : Nat) (f : FbkUnit → FbkUnit) : (d.modFbk u f).patrol = d.patrol := rfl
@[simp] theorem Dev.modFbk_jnl (d : Dev) (u : Nat) (f : FbkUnit → FbkUnit) : (d.modFbk u f).jnl = d.jnl := rfl
@[simp] theorem Dev.modFbk_con (d : Dev) (u : Nat) (f : FbkUnit → FbkUnit) : (d.modFbk u f).con = d.con := rfl
@[simp] theorem Dev.modFbk_can (d : Dev) (u : Nat) (f : FbkUnit → FbkUnit) : (d.modFbk u f).can = d.can := rfl
@[simp] theorem Dev.modFbk_host (d : Dev) (u : Nat) (f : FbkUnit → FbkUnit) : (d.modFbk u f).host = d.host := rfl
@[simp] theorem Dev.modFbk_wdn (d : Dev) (u : Nat) (f : FbkUnit → FbkUnit) : (d.modFbk u f).wdn = d.wdn := rfl
@[simp] theorem Dev.modFbk_free (d : Dev) (u : Nat) (f : FbkUnit → FbkUnit) : (d.modFbk u f).free = d.free := rfl

/-! ### `Dev.modEng` -/
@[simp] theorem Dev.modEng_regs (d : Dev) (e : Nat) (f : EngUnit → EngUnit) : (d.modEng e f).regs = d.regs := rfl
@[simp] theorem Dev.modEng_clk (d : Dev) (e : Nat) (f : EngUnit → EngUnit) : (d.modEng e f).clk = d.clk := rfl
@[simp] theorem Dev.modEng_sys (d : Dev) (e : Nat) (f : EngUnit → EngUnit) : (d.modEng e f).sys = d.sys := rfl
@[simp] theorem Dev.modEng_img (d : Dev) (e : Nat) (f : EngUnit → EngUnit) : (d.modEng e f).img = d.img := rfl
@[simp] theorem Dev.modEng_gey (d : Dev) (e : Nat) (f : EngUnit → EngUnit) : (d.modEng e f).gey = d.gey := rfl
@[simp] theorem Dev.modEng_legs (d : Dev) (e : Nat) (f : EngUnit → EngUnit) : (d.modEng e f).legs = d.legs := rfl
@[simp] theorem Dev.modEng_brakes (d : Dev) (e : Nat) (f : EngUnit → EngUnit) : (d.modEng e f).brakes = d.brakes := rfl
@[simp] theorem Dev.modEng_vent (d : Dev) (e : Nat) (f : EngUnit → EngUnit) : (d.modEng e f).vent = d.vent := rfl
@[simp] theorem Dev.modEng_link (d : Dev) (e : Nat) (f : EngUnit → EngUnit) : (d.modEng e f).link = d.link := rfl
@[simp] theorem Dev.modEng_tap (d : Dev) (e : Nat) (f : EngUnit → EngUnit) : (d.modEng e f).tap = d.tap := rfl
@[simp] theorem Dev.modEng_axes (d : Dev) (e : Nat) (f : EngUnit → EngUnit) : (d.modEng e f).axes = d.axes := rfl
@[simp] theorem Dev.modEng_banks (d : Dev) (e : Nat) (f : EngUnit → EngUnit) : (d.modEng e f).banks = d.banks := rfl
@[simp] theorem Dev.modEng_accs (d : Dev) (e : Nat) (f : EngUnit → EngUnit) : (d.modEng e f).accs = d.accs := rfl
@[simp] theorem Dev.modEng_fbks (d : Dev) (e : Nat) (f : EngUnit → EngUnit) : (d.modEng e f).fbks = d.fbks := rfl
@[simp] theorem Dev.modEng_cor (d : Dev) (e : Nat) (f : EngUnit → EngUnit) : (d.modEng e f).cor = d.cor := rfl
@[simp] theorem Dev.modEng_axLive (d : Dev) (e : Nat) (f : EngUnit → EngUnit) : (d.modEng e f).axLive = d.axLive := rfl
@[simp] theorem Dev.modEng_patrol (d : Dev) (e : Nat) (f : EngUnit → EngUnit) : (d.modEng e f).patrol = d.patrol := rfl
@[simp] theorem Dev.modEng_jnl (d : Dev) (e : Nat) (f : EngUnit → EngUnit) : (d.modEng e f).jnl = d.jnl := rfl
@[simp] theorem Dev.modEng_con (d : Dev) (e : Nat) (f : EngUnit → EngUnit) : (d.modEng e f).con = d.con := rfl
@[simp] theorem Dev.modEng_can (d : Dev) (e : Nat) (f : EngUnit → EngUnit) : (d.modEng e f).can = d.can := rfl
@[simp] theorem Dev.modEng_host (d : Dev) (e : Nat) (f : EngUnit → EngUnit) : (d.modEng e f).host = d.host := rfl
@[simp] theorem Dev.modEng_wdn (d : Dev) (e : Nat) (f : EngUnit → EngUnit) : (d.modEng e f).wdn = d.wdn := rfl
@[simp] theorem Dev.modEng_free (d : Dev) (e : Nat) (f : EngUnit → EngUnit) : (d.modEng e f).free = d.free := rfl

/-! ### `Dev.modRun` -/
@[simp] theorem Dev.modRun_regs (d : Dev) (e : Nat) (f : EngRun → EngRun) : (d.modRun e f).regs = d.regs := rfl
@[simp] theorem Dev.modRun_clk (d : Dev) (e : Nat) (f : EngRun → EngRun) : (d.modRun e f).clk = d.clk := rfl
@[simp] theorem Dev.modRun_sys (d : Dev) (e : Nat) (f : EngRun → EngRun) : (d.modRun e f).sys = d.sys := rfl
@[simp] theorem Dev.modRun_img (d : Dev) (e : Nat) (f : EngRun → EngRun) : (d.modRun e f).img = d.img := rfl
@[simp] theorem Dev.modRun_gey (d : Dev) (e : Nat) (f : EngRun → EngRun) : (d.modRun e f).gey = d.gey := rfl
@[simp] theorem Dev.modRun_legs (d : Dev) (e : Nat) (f : EngRun → EngRun) : (d.modRun e f).legs = d.legs := rfl
@[simp] theorem Dev.modRun_brakes (d : Dev) (e : Nat) (f : EngRun → EngRun) : (d.modRun e f).brakes = d.brakes := rfl
@[simp] theorem Dev.modRun_vent (d : Dev) (e : Nat) (f : EngRun → EngRun) : (d.modRun e f).vent = d.vent := rfl
@[simp] theorem Dev.modRun_link (d : Dev) (e : Nat) (f : EngRun → EngRun) : (d.modRun e f).link = d.link := rfl
@[simp] theorem Dev.modRun_tap (d : Dev) (e : Nat) (f : EngRun → EngRun) : (d.modRun e f).tap = d.tap := rfl
@[simp] theorem Dev.modRun_axes (d : Dev) (e : Nat) (f : EngRun → EngRun) : (d.modRun e f).axes = d.axes := rfl
@[simp] theorem Dev.modRun_banks (d : Dev) (e : Nat) (f : EngRun → EngRun) : (d.modRun e f).banks = d.banks := rfl
@[simp] theorem Dev.modRun_accs (d : Dev) (e : Nat) (f : EngRun → EngRun) : (d.modRun e f).accs = d.accs := rfl
@[simp] theorem Dev.modRun_fbks (d : Dev) (e : Nat) (f : EngRun → EngRun) : (d.modRun e f).fbks = d.fbks := rfl
@[simp] theorem Dev.modRun_cor (d : Dev) (e : Nat) (f : EngRun → EngRun) : (d.modRun e f).cor = d.cor := rfl
@[simp] theorem Dev.modRun_axLive (d : Dev) (e : Nat) (f : EngRun → EngRun) : (d.modRun e f).axLive = d.axLive := rfl
@[simp] theorem Dev.modRun_patrol (d : Dev) (e : Nat) (f : EngRun → EngRun) : (d.modRun e f).patrol = d.patrol := rfl
@[simp] theorem Dev.modRun_jnl (d : Dev) (e : Nat) (f : EngRun → EngRun) : (d.modRun e f).jnl = d.jnl := rfl
@[simp] theorem Dev.modRun_con (d : Dev) (e : Nat) (f : EngRun → EngRun) : (d.modRun e f).con = d.con := rfl
@[simp] theorem Dev.modRun_can (d : Dev) (e : Nat) (f : EngRun → EngRun) : (d.modRun e f).can = d.can := rfl
@[simp] theorem Dev.modRun_host (d : Dev) (e : Nat) (f : EngRun → EngRun) : (d.modRun e f).host = d.host := rfl
@[simp] theorem Dev.modRun_wdn (d : Dev) (e : Nat) (f : EngRun → EngRun) : (d.modRun e f).wdn = d.wdn := rfl
@[simp] theorem Dev.modRun_free (d : Dev) (e : Nat) (f : EngRun → EngRun) : (d.modRun e f).free = d.free := rfl

/-! ### `Dev.modCtl` -/
@[simp] theorem Dev.modCtl_regs (d : Dev) (c : Nat) (f : CanCtl → CanCtl) : (d.modCtl c f).regs = d.regs := rfl
@[simp] theorem Dev.modCtl_clk (d : Dev) (c : Nat) (f : CanCtl → CanCtl) : (d.modCtl c f).clk = d.clk := rfl
@[simp] theorem Dev.modCtl_sys (d : Dev) (c : Nat) (f : CanCtl → CanCtl) : (d.modCtl c f).sys = d.sys := rfl
@[simp] theorem Dev.modCtl_img (d : Dev) (c : Nat) (f : CanCtl → CanCtl) : (d.modCtl c f).img = d.img := rfl
@[simp] theorem Dev.modCtl_gey (d : Dev) (c : Nat) (f : CanCtl → CanCtl) : (d.modCtl c f).gey = d.gey := rfl
@[simp] theorem Dev.modCtl_legs (d : Dev) (c : Nat) (f : CanCtl → CanCtl) : (d.modCtl c f).legs = d.legs := rfl
@[simp] theorem Dev.modCtl_brakes (d : Dev) (c : Nat) (f : CanCtl → CanCtl) : (d.modCtl c f).brakes = d.brakes := rfl
@[simp] theorem Dev.modCtl_vent (d : Dev) (c : Nat) (f : CanCtl → CanCtl) : (d.modCtl c f).vent = d.vent := rfl
@[simp] theorem Dev.modCtl_link (d : Dev) (c : Nat) (f : CanCtl → CanCtl) : (d.modCtl c f).link = d.link := rfl
@[simp] theorem Dev.modCtl_tap (d : Dev) (c : Nat) (f : CanCtl → CanCtl) : (d.modCtl c f).tap = d.tap := rfl
@[simp] theorem Dev.modCtl_axes (d : Dev) (c : Nat) (f : CanCtl → CanCtl) : (d.modCtl c f).axes = d.axes := rfl
@[simp] theorem Dev.modCtl_banks (d : Dev) (c : Nat) (f : CanCtl → CanCtl) : (d.modCtl c f).banks = d.banks := rfl
@[simp] theorem Dev.modCtl_accs (d : Dev) (c : Nat) (f : CanCtl → CanCtl) : (d.modCtl c f).accs = d.accs := rfl
@[simp] theorem Dev.modCtl_fbks (d : Dev) (c : Nat) (f : CanCtl → CanCtl) : (d.modCtl c f).fbks = d.fbks := rfl
@[simp] theorem Dev.modCtl_cor (d : Dev) (c : Nat) (f : CanCtl → CanCtl) : (d.modCtl c f).cor = d.cor := rfl
@[simp] theorem Dev.modCtl_axLive (d : Dev) (c : Nat) (f : CanCtl → CanCtl) : (d.modCtl c f).axLive = d.axLive := rfl
@[simp] theorem Dev.modCtl_engs (d : Dev) (c : Nat) (f : CanCtl → CanCtl) : (d.modCtl c f).engs = d.engs := rfl
@[simp] theorem Dev.modCtl_patrol (d : Dev) (c : Nat) (f : CanCtl → CanCtl) : (d.modCtl c f).patrol = d.patrol := rfl
@[simp] theorem Dev.modCtl_jnl (d : Dev) (c : Nat) (f : CanCtl → CanCtl) : (d.modCtl c f).jnl = d.jnl := rfl
@[simp] theorem Dev.modCtl_con (d : Dev) (c : Nat) (f : CanCtl → CanCtl) : (d.modCtl c f).con = d.con := rfl
@[simp] theorem Dev.modCtl_host (d : Dev) (c : Nat) (f : CanCtl → CanCtl) : (d.modCtl c f).host = d.host := rfl
@[simp] theorem Dev.modCtl_wdn (d : Dev) (c : Nat) (f : CanCtl → CanCtl) : (d.modCtl c f).wdn = d.wdn := rfl
@[simp] theorem Dev.modCtl_free (d : Dev) (c : Nat) (f : CanCtl → CanCtl) : (d.modCtl c f).free = d.free := rfl

/-! ### `Dev.modVent` -/
@[simp] theorem Dev.modVent_regs (d : Dev) (f : Vent → Vent) : (d.modVent f).regs = d.regs := rfl
@[simp] theorem Dev.modVent_clk (d : Dev) (f : Vent → Vent) : (d.modVent f).clk = d.clk := rfl
@[simp] theorem Dev.modVent_sys (d : Dev) (f : Vent → Vent) : (d.modVent f).sys = d.sys := rfl
@[simp] theorem Dev.modVent_img (d : Dev) (f : Vent → Vent) : (d.modVent f).img = d.img := rfl
@[simp] theorem Dev.modVent_gey (d : Dev) (f : Vent → Vent) : (d.modVent f).gey = d.gey := rfl
@[simp] theorem Dev.modVent_legs (d : Dev) (f : Vent → Vent) : (d.modVent f).legs = d.legs := rfl
@[simp] theorem Dev.modVent_brakes (d : Dev) (f : Vent → Vent) : (d.modVent f).brakes = d.brakes := rfl
@[simp] theorem Dev.modVent_link (d : Dev) (f : Vent → Vent) : (d.modVent f).link = d.link := rfl
@[simp] theorem Dev.modVent_tap (d : Dev) (f : Vent → Vent) : (d.modVent f).tap = d.tap := rfl
@[simp] theorem Dev.modVent_axes (d : Dev) (f : Vent → Vent) : (d.modVent f).axes = d.axes := rfl
@[simp] theorem Dev.modVent_banks (d : Dev) (f : Vent → Vent) : (d.modVent f).banks = d.banks := rfl
@[simp] theorem Dev.modVent_accs (d : Dev) (f : Vent → Vent) : (d.modVent f).accs = d.accs := rfl
@[simp] theorem Dev.modVent_fbks (d : Dev) (f : Vent → Vent) : (d.modVent f).fbks = d.fbks := rfl
@[simp] theorem Dev.modVent_cor (d : Dev) (f : Vent → Vent) : (d.modVent f).cor = d.cor := rfl
@[simp] theorem Dev.modVent_axLive (d : Dev) (f : Vent → Vent) : (d.modVent f).axLive = d.axLive := rfl
@[simp] theorem Dev.modVent_engs (d : Dev) (f : Vent → Vent) : (d.modVent f).engs = d.engs := rfl
@[simp] theorem Dev.modVent_patrol (d : Dev) (f : Vent → Vent) : (d.modVent f).patrol = d.patrol := rfl
@[simp] theorem Dev.modVent_jnl (d : Dev) (f : Vent → Vent) : (d.modVent f).jnl = d.jnl := rfl
@[simp] theorem Dev.modVent_con (d : Dev) (f : Vent → Vent) : (d.modVent f).con = d.con := rfl
@[simp] theorem Dev.modVent_can (d : Dev) (f : Vent → Vent) : (d.modVent f).can = d.can := rfl
@[simp] theorem Dev.modVent_host (d : Dev) (f : Vent → Vent) : (d.modVent f).host = d.host := rfl
@[simp] theorem Dev.modVent_wdn (d : Dev) (f : Vent → Vent) : (d.modVent f).wdn = d.wdn := rfl
@[simp] theorem Dev.modVent_free (d : Dev) (f : Vent → Vent) : (d.modVent f).free = d.free := rfl

/-! ### `Dev.modLink` -/
@[simp] theorem Dev.modLink_regs (d : Dev) (f : Link → Link) : (d.modLink f).regs = d.regs := rfl
@[simp] theorem Dev.modLink_clk (d : Dev) (f : Link → Link) : (d.modLink f).clk = d.clk := rfl
@[simp] theorem Dev.modLink_sys (d : Dev) (f : Link → Link) : (d.modLink f).sys = d.sys := rfl
@[simp] theorem Dev.modLink_img (d : Dev) (f : Link → Link) : (d.modLink f).img = d.img := rfl
@[simp] theorem Dev.modLink_gey (d : Dev) (f : Link → Link) : (d.modLink f).gey = d.gey := rfl
@[simp] theorem Dev.modLink_legs (d : Dev) (f : Link → Link) : (d.modLink f).legs = d.legs := rfl
@[simp] theorem Dev.modLink_brakes (d : Dev) (f : Link → Link) : (d.modLink f).brakes = d.brakes := rfl
@[simp] theorem Dev.modLink_vent (d : Dev) (f : Link → Link) : (d.modLink f).vent = d.vent := rfl
@[simp] theorem Dev.modLink_tap (d : Dev) (f : Link → Link) : (d.modLink f).tap = d.tap := rfl
@[simp] theorem Dev.modLink_axes (d : Dev) (f : Link → Link) : (d.modLink f).axes = d.axes := rfl
@[simp] theorem Dev.modLink_banks (d : Dev) (f : Link → Link) : (d.modLink f).banks = d.banks := rfl
@[simp] theorem Dev.modLink_accs (d : Dev) (f : Link → Link) : (d.modLink f).accs = d.accs := rfl
@[simp] theorem Dev.modLink_fbks (d : Dev) (f : Link → Link) : (d.modLink f).fbks = d.fbks := rfl
@[simp] theorem Dev.modLink_cor (d : Dev) (f : Link → Link) : (d.modLink f).cor = d.cor := rfl
@[simp] theorem Dev.modLink_axLive (d : Dev) (f : Link → Link) : (d.modLink f).axLive = d.axLive := rfl
@[simp] theorem Dev.modLink_engs (d : Dev) (f : Link → Link) : (d.modLink f).engs = d.engs := rfl
@[simp] theorem Dev.modLink_patrol (d : Dev) (f : Link → Link) : (d.modLink f).patrol = d.patrol := rfl
@[simp] theorem Dev.modLink_jnl (d : Dev) (f : Link → Link) : (d.modLink f).jnl = d.jnl := rfl
@[simp] theorem Dev.modLink_con (d : Dev) (f : Link → Link) : (d.modLink f).con = d.con := rfl
@[simp] theorem Dev.modLink_can (d : Dev) (f : Link → Link) : (d.modLink f).can = d.can := rfl
@[simp] theorem Dev.modLink_host (d : Dev) (f : Link → Link) : (d.modLink f).host = d.host := rfl
@[simp] theorem Dev.modLink_wdn (d : Dev) (f : Link → Link) : (d.modLink f).wdn = d.wdn := rfl
@[simp] theorem Dev.modLink_free (d : Dev) (f : Link → Link) : (d.modLink f).free = d.free := rfl

/-! ### `Dev.modJnl` -/
@[simp] theorem Dev.modJnl_regs (d : Dev) (f : Journal → Journal) : (d.modJnl f).regs = d.regs := rfl
@[simp] theorem Dev.modJnl_clk (d : Dev) (f : Journal → Journal) : (d.modJnl f).clk = d.clk := rfl
@[simp] theorem Dev.modJnl_sys (d : Dev) (f : Journal → Journal) : (d.modJnl f).sys = d.sys := rfl
@[simp] theorem Dev.modJnl_img (d : Dev) (f : Journal → Journal) : (d.modJnl f).img = d.img := rfl
@[simp] theorem Dev.modJnl_gey (d : Dev) (f : Journal → Journal) : (d.modJnl f).gey = d.gey := rfl
@[simp] theorem Dev.modJnl_legs (d : Dev) (f : Journal → Journal) : (d.modJnl f).legs = d.legs := rfl
@[simp] theorem Dev.modJnl_brakes (d : Dev) (f : Journal → Journal) : (d.modJnl f).brakes = d.brakes := rfl
@[simp] theorem Dev.modJnl_vent (d : Dev) (f : Journal → Journal) : (d.modJnl f).vent = d.vent := rfl
@[simp] theorem Dev.modJnl_link (d : Dev) (f : Journal → Journal) : (d.modJnl f).link = d.link := rfl
@[simp] theorem Dev.modJnl_tap (d : Dev) (f : Journal → Journal) : (d.modJnl f).tap = d.tap := rfl
@[simp] theorem Dev.modJnl_axes (d : Dev) (f : Journal → Journal) : (d.modJnl f).axes = d.axes := rfl
@[simp] theorem Dev.modJnl_banks (d : Dev) (f : Journal → Journal) : (d.modJnl f).banks = d.banks := rfl
@[simp] theorem Dev.modJnl_accs (d : Dev) (f : Journal → Journal) : (d.modJnl f).accs = d.accs := rfl
@[simp] theorem Dev.modJnl_fbks (d : Dev) (f : Journal → Journal) : (d.modJnl f).fbks = d.fbks := rfl
@[simp] theorem Dev.modJnl_cor (d : Dev) (f : Journal → Journal) : (d.modJnl f).cor = d.cor := rfl
@[simp] theorem Dev.modJnl_axLive (d : Dev) (f : Journal → Journal) : (d.modJnl f).axLive = d.axLive := rfl
@[simp] theorem Dev.modJnl_engs (d : Dev) (f : Journal → Journal) : (d.modJnl f).engs = d.engs := rfl
@[simp] theorem Dev.modJnl_patrol (d : Dev) (f : Journal → Journal) : (d.modJnl f).patrol = d.patrol := rfl
@[simp] theorem Dev.modJnl_con (d : Dev) (f : Journal → Journal) : (d.modJnl f).con = d.con := rfl
@[simp] theorem Dev.modJnl_can (d : Dev) (f : Journal → Journal) : (d.modJnl f).can = d.can := rfl
@[simp] theorem Dev.modJnl_host (d : Dev) (f : Journal → Journal) : (d.modJnl f).host = d.host := rfl
@[simp] theorem Dev.modJnl_wdn (d : Dev) (f : Journal → Journal) : (d.modJnl f).wdn = d.wdn := rfl
@[simp] theorem Dev.modJnl_free (d : Dev) (f : Journal → Journal) : (d.modJnl f).free = d.free := rfl

/-! ### `Dev.modHost` -/
@[simp] theorem Dev.modHost_regs (d : Dev) (f : HostPort → HostPort) : (d.modHost f).regs = d.regs := rfl
@[simp] theorem Dev.modHost_clk (d : Dev) (f : HostPort → HostPort) : (d.modHost f).clk = d.clk := rfl
@[simp] theorem Dev.modHost_sys (d : Dev) (f : HostPort → HostPort) : (d.modHost f).sys = d.sys := rfl
@[simp] theorem Dev.modHost_img (d : Dev) (f : HostPort → HostPort) : (d.modHost f).img = d.img := rfl
@[simp] theorem Dev.modHost_gey (d : Dev) (f : HostPort → HostPort) : (d.modHost f).gey = d.gey := rfl
@[simp] theorem Dev.modHost_legs (d : Dev) (f : HostPort → HostPort) : (d.modHost f).legs = d.legs := rfl
@[simp] theorem Dev.modHost_brakes (d : Dev) (f : HostPort → HostPort) : (d.modHost f).brakes = d.brakes := rfl
@[simp] theorem Dev.modHost_vent (d : Dev) (f : HostPort → HostPort) : (d.modHost f).vent = d.vent := rfl
@[simp] theorem Dev.modHost_link (d : Dev) (f : HostPort → HostPort) : (d.modHost f).link = d.link := rfl
@[simp] theorem Dev.modHost_tap (d : Dev) (f : HostPort → HostPort) : (d.modHost f).tap = d.tap := rfl
@[simp] theorem Dev.modHost_axes (d : Dev) (f : HostPort → HostPort) : (d.modHost f).axes = d.axes := rfl
@[simp] theorem Dev.modHost_banks (d : Dev) (f : HostPort → HostPort) : (d.modHost f).banks = d.banks := rfl
@[simp] theorem Dev.modHost_accs (d : Dev) (f : HostPort → HostPort) : (d.modHost f).accs = d.accs := rfl
@[simp] theorem Dev.modHost_fbks (d : Dev) (f : HostPort → HostPort) : (d.modHost f).fbks = d.fbks := rfl
@[simp] theorem Dev.modHost_cor (d : Dev) (f : HostPort → HostPort) : (d.modHost f).cor = d.cor := rfl
@[simp] theorem Dev.modHost_axLive (d : Dev) (f : HostPort → HostPort) : (d.modHost f).axLive = d.axLive := rfl
@[simp] theorem Dev.modHost_engs (d : Dev) (f : HostPort → HostPort) : (d.modHost f).engs = d.engs := rfl
@[simp] theorem Dev.modHost_patrol (d : Dev) (f : HostPort → HostPort) : (d.modHost f).patrol = d.patrol := rfl
@[simp] theorem Dev.modHost_jnl (d : Dev) (f : HostPort → HostPort) : (d.modHost f).jnl = d.jnl := rfl
@[simp] theorem Dev.modHost_con (d : Dev) (f : HostPort → HostPort) : (d.modHost f).con = d.con := rfl
@[simp] theorem Dev.modHost_can (d : Dev) (f : HostPort → HostPort) : (d.modHost f).can = d.can := rfl
@[simp] theorem Dev.modHost_wdn (d : Dev) (f : HostPort → HostPort) : (d.modHost f).wdn = d.wdn := rfl
@[simp] theorem Dev.modHost_free (d : Dev) (f : HostPort → HostPort) : (d.modHost f).free = d.free := rfl

/-! ### `Dev.modWdn` -/
@[simp] theorem Dev.modWdn_regs (d : Dev) (f : Warden → Warden) : (d.modWdn f).regs = d.regs := rfl
@[simp] theorem Dev.modWdn_clk (d : Dev) (f : Warden → Warden) : (d.modWdn f).clk = d.clk := rfl
@[simp] theorem Dev.modWdn_sys (d : Dev) (f : Warden → Warden) : (d.modWdn f).sys = d.sys := rfl
@[simp] theorem Dev.modWdn_img (d : Dev) (f : Warden → Warden) : (d.modWdn f).img = d.img := rfl
@[simp] theorem Dev.modWdn_gey (d : Dev) (f : Warden → Warden) : (d.modWdn f).gey = d.gey := rfl
@[simp] theorem Dev.modWdn_legs (d : Dev) (f : Warden → Warden) : (d.modWdn f).legs = d.legs := rfl
@[simp] theorem Dev.modWdn_brakes (d : Dev) (f : Warden → Warden) : (d.modWdn f).brakes = d.brakes := rfl
@[simp] theorem Dev.modWdn_vent (d : Dev) (f : Warden → Warden) : (d.modWdn f).vent = d.vent := rfl
@[simp] theorem Dev.modWdn_link (d : Dev) (f : Warden → Warden) : (d.modWdn f).link = d.link := rfl
@[simp] theorem Dev.modWdn_tap (d : Dev) (f : Warden → Warden) : (d.modWdn f).tap = d.tap := rfl
@[simp] theorem Dev.modWdn_axes (d : Dev) (f : Warden → Warden) : (d.modWdn f).axes = d.axes := rfl
@[simp] theorem Dev.modWdn_banks (d : Dev) (f : Warden → Warden) : (d.modWdn f).banks = d.banks := rfl
@[simp] theorem Dev.modWdn_accs (d : Dev) (f : Warden → Warden) : (d.modWdn f).accs = d.accs := rfl
@[simp] theorem Dev.modWdn_fbks (d : Dev) (f : Warden → Warden) : (d.modWdn f).fbks = d.fbks := rfl
@[simp] theorem Dev.modWdn_cor (d : Dev) (f : Warden → Warden) : (d.modWdn f).cor = d.cor := rfl
@[simp] theorem Dev.modWdn_axLive (d : Dev) (f : Warden → Warden) : (d.modWdn f).axLive = d.axLive := rfl
@[simp] theorem Dev.modWdn_engs (d : Dev) (f : Warden → Warden) : (d.modWdn f).engs = d.engs := rfl
@[simp] theorem Dev.modWdn_patrol (d : Dev) (f : Warden → Warden) : (d.modWdn f).patrol = d.patrol := rfl
@[simp] theorem Dev.modWdn_jnl (d : Dev) (f : Warden → Warden) : (d.modWdn f).jnl = d.jnl := rfl
@[simp] theorem Dev.modWdn_con (d : Dev) (f : Warden → Warden) : (d.modWdn f).con = d.con := rfl
@[simp] theorem Dev.modWdn_can (d : Dev) (f : Warden → Warden) : (d.modWdn f).can = d.can := rfl
@[simp] theorem Dev.modWdn_host (d : Dev) (f : Warden → Warden) : (d.modWdn f).host = d.host := rfl
@[simp] theorem Dev.modWdn_free (d : Dev) (f : Warden → Warden) : (d.modWdn f).free = d.free := rfl

/-! ### `Dev.modCon` -/
@[simp] theorem Dev.modCon_regs (d : Dev) (f : Conduit → Conduit) : (d.modCon f).regs = d.regs := rfl
@[simp] theorem Dev.modCon_clk (d : Dev) (f : Conduit → Conduit) : (d.modCon f).clk = d.clk := rfl
@[simp] theorem Dev.modCon_sys (d : Dev) (f : Conduit → Conduit) : (d.modCon f).sys = d.sys := rfl
@[simp] theorem Dev.modCon_img (d : Dev) (f : Conduit → Conduit) : (d.modCon f).img = d.img := rfl
@[simp] theorem Dev.modCon_gey (d : Dev) (f : Conduit → Conduit) : (d.modCon f).gey = d.gey := rfl
@[simp] theorem Dev.modCon_legs (d : Dev) (f : Conduit → Conduit) : (d.modCon f).legs = d.legs := rfl
@[simp] theorem Dev.modCon_brakes (d : Dev) (f : Conduit → Conduit) : (d.modCon f).brakes = d.brakes := rfl
@[simp] theorem Dev.modCon_vent (d : Dev) (f : Conduit → Conduit) : (d.modCon f).vent = d.vent := rfl
@[simp] theorem Dev.modCon_link (d : Dev) (f : Conduit → Conduit) : (d.modCon f).link = d.link := rfl
@[simp] theorem Dev.modCon_tap (d : Dev) (f : Conduit → Conduit) : (d.modCon f).tap = d.tap := rfl
@[simp] theorem Dev.modCon_axes (d : Dev) (f : Conduit → Conduit) : (d.modCon f).axes = d.axes := rfl
@[simp] theorem Dev.modCon_banks (d : Dev) (f : Conduit → Conduit) : (d.modCon f).banks = d.banks := rfl
@[simp] theorem Dev.modCon_accs (d : Dev) (f : Conduit → Conduit) : (d.modCon f).accs = d.accs := rfl
@[simp] theorem Dev.modCon_fbks (d : Dev) (f : Conduit → Conduit) : (d.modCon f).fbks = d.fbks := rfl
@[simp] theorem Dev.modCon_cor (d : Dev) (f : Conduit → Conduit) : (d.modCon f).cor = d.cor := rfl
@[simp] theorem Dev.modCon_axLive (d : Dev) (f : Conduit → Conduit) : (d.modCon f).axLive = d.axLive := rfl
@[simp] theorem Dev.modCon_engs (d : Dev) (f : Conduit → Conduit) : (d.modCon f).engs = d.engs := rfl
@[simp] theorem Dev.modCon_patrol (d : Dev) (f : Conduit → Conduit) : (d.modCon f).patrol = d.patrol := rfl
@[simp] theorem Dev.modCon_jnl (d : Dev) (f : Conduit → Conduit) : (d.modCon f).jnl = d.jnl := rfl
@[simp] theorem Dev.modCon_can (d : Dev) (f : Conduit → Conduit) : (d.modCon f).can = d.can := rfl
@[simp] theorem Dev.modCon_host (d : Dev) (f : Conduit → Conduit) : (d.modCon f).host = d.host := rfl
@[simp] theorem Dev.modCon_wdn (d : Dev) (f : Conduit → Conduit) : (d.modCon f).wdn = d.wdn := rfl
@[simp] theorem Dev.modCon_free (d : Dev) (f : Conduit → Conduit) : (d.modCon f).free = d.free := rfl

/-! ### `Dev.modPat` -/
@[simp] theorem Dev.modPat_regs (d : Dev) (f : Patrol → Patrol) : (d.modPat f).regs = d.regs := rfl
@[simp] theorem Dev.modPat_clk (d : Dev) (f : Patrol → Patrol) : (d.modPat f).clk = d.clk := rfl
@[simp] theorem Dev.modPat_sys (d : Dev) (f : Patrol → Patrol) : (d.modPat f).sys = d.sys := rfl
@[simp] theorem Dev.modPat_img (d : Dev) (f : Patrol → Patrol) : (d.modPat f).img = d.img := rfl
@[simp] theorem Dev.modPat_gey (d : Dev) (f : Patrol → Patrol) : (d.modPat f).gey = d.gey := rfl
@[simp] theorem Dev.modPat_legs (d : Dev) (f : Patrol → Patrol) : (d.modPat f).legs = d.legs := rfl
@[simp] theorem Dev.modPat_brakes (d : Dev) (f : Patrol → Patrol) : (d.modPat f).brakes = d.brakes := rfl
@[simp] theorem Dev.modPat_vent (d : Dev) (f : Patrol → Patrol) : (d.modPat f).vent = d.vent := rfl
@[simp] theorem Dev.modPat_link (d : Dev) (f : Patrol → Patrol) : (d.modPat f).link = d.link := rfl
@[simp] theorem Dev.modPat_tap (d : Dev) (f : Patrol → Patrol) : (d.modPat f).tap = d.tap := rfl
@[simp] theorem Dev.modPat_axes (d : Dev) (f : Patrol → Patrol) : (d.modPat f).axes = d.axes := rfl
@[simp] theorem Dev.modPat_banks (d : Dev) (f : Patrol → Patrol) : (d.modPat f).banks = d.banks := rfl
@[simp] theorem Dev.modPat_accs (d : Dev) (f : Patrol → Patrol) : (d.modPat f).accs = d.accs := rfl
@[simp] theorem Dev.modPat_fbks (d : Dev) (f : Patrol → Patrol) : (d.modPat f).fbks = d.fbks := rfl
@[simp] theorem Dev.modPat_cor (d : Dev) (f : Patrol → Patrol) : (d.modPat f).cor = d.cor := rfl
@[simp] theorem Dev.modPat_axLive (d : Dev) (f : Patrol → Patrol) : (d.modPat f).axLive = d.axLive := rfl
@[simp] theorem Dev.modPat_engs (d : Dev) (f : Patrol → Patrol) : (d.modPat f).engs = d.engs := rfl
@[simp] theorem Dev.modPat_jnl (d : Dev) (f : Patrol → Patrol) : (d.modPat f).jnl = d.jnl := rfl
@[simp] theorem Dev.modPat_con (d : Dev) (f : Patrol → Patrol) : (d.modPat f).con = d.con := rfl
@[simp] theorem Dev.modPat_can (d : Dev) (f : Patrol → Patrol) : (d.modPat f).can = d.can := rfl
@[simp] theorem Dev.modPat_host (d : Dev) (f : Patrol → Patrol) : (d.modPat f).host = d.host := rfl
@[simp] theorem Dev.modPat_wdn (d : Dev) (f : Patrol → Patrol) : (d.modPat f).wdn = d.wdn := rfl
@[simp] theorem Dev.modPat_free (d : Dev) (f : Patrol → Patrol) : (d.modPat f).free = d.free := rfl

/-! ### `Dev.modGey` -/
@[simp] theorem Dev.modGey_regs (d : Dev) (f : GeyState → GeyState) : (d.modGey f).regs = d.regs := rfl
@[simp] theorem Dev.modGey_clk (d : Dev) (f : GeyState → GeyState) : (d.modGey f).clk = d.clk := rfl
@[simp] theorem Dev.modGey_sys (d : Dev) (f : GeyState → GeyState) : (d.modGey f).sys = d.sys := rfl
@[simp] theorem Dev.modGey_img (d : Dev) (f : GeyState → GeyState) : (d.modGey f).img = d.img := rfl
@[simp] theorem Dev.modGey_legs (d : Dev) (f : GeyState → GeyState) : (d.modGey f).legs = d.legs := rfl
@[simp] theorem Dev.modGey_brakes (d : Dev) (f : GeyState → GeyState) : (d.modGey f).brakes = d.brakes := rfl
@[simp] theorem Dev.modGey_vent (d : Dev) (f : GeyState → GeyState) : (d.modGey f).vent = d.vent := rfl
@[simp] theorem Dev.modGey_link (d : Dev) (f : GeyState → GeyState) : (d.modGey f).link = d.link := rfl
@[simp] theorem Dev.modGey_tap (d : Dev) (f : GeyState → GeyState) : (d.modGey f).tap = d.tap := rfl
@[simp] theorem Dev.modGey_axes (d : Dev) (f : GeyState → GeyState) : (d.modGey f).axes = d.axes := rfl
@[simp] theorem Dev.modGey_banks (d : Dev) (f : GeyState → GeyState) : (d.modGey f).banks = d.banks := rfl
@[simp] theorem Dev.modGey_accs (d : Dev) (f : GeyState → GeyState) : (d.modGey f).accs = d.accs := rfl
@[simp] theorem Dev.modGey_fbks (d : Dev) (f : GeyState → GeyState) : (d.modGey f).fbks = d.fbks := rfl
@[simp] theorem Dev.modGey_cor (d : Dev) (f : GeyState → GeyState) : (d.modGey f).cor = d.cor := rfl
@[simp] theorem Dev.modGey_axLive (d : Dev) (f : GeyState → GeyState) : (d.modGey f).axLive = d.axLive := rfl
@[simp] theorem Dev.modGey_engs (d : Dev) (f : GeyState → GeyState) : (d.modGey f).engs = d.engs := rfl
@[simp] theorem Dev.modGey_patrol (d : Dev) (f : GeyState → GeyState) : (d.modGey f).patrol = d.patrol := rfl
@[simp] theorem Dev.modGey_jnl (d : Dev) (f : GeyState → GeyState) : (d.modGey f).jnl = d.jnl := rfl
@[simp] theorem Dev.modGey_con (d : Dev) (f : GeyState → GeyState) : (d.modGey f).con = d.con := rfl
@[simp] theorem Dev.modGey_can (d : Dev) (f : GeyState → GeyState) : (d.modGey f).can = d.can := rfl
@[simp] theorem Dev.modGey_host (d : Dev) (f : GeyState → GeyState) : (d.modGey f).host = d.host := rfl
@[simp] theorem Dev.modGey_wdn (d : Dev) (f : GeyState → GeyState) : (d.modGey f).wdn = d.wdn := rfl
@[simp] theorem Dev.modGey_free (d : Dev) (f : GeyState → GeyState) : (d.modGey f).free = d.free := rfl

/-! ### What an update changes -/

theorem Dev.modLeg_leg (d : Dev) (l j : Nat) (f : LegUnit → LegUnit) :
    (d.modLeg l f).leg j = if j = l then f (d.leg l) else d.leg j := uget_uset ..
theorem Dev.modBrk_brk (d : Dev) (b j : Nat) (f : BrakeUnit → BrakeUnit) :
    (d.modBrk b f).brk j = if j = b then f (d.brk b) else d.brk j := uget_uset ..
theorem Dev.modAxis_axis (d : Dev) (k j : Nat) (f : AxisUnit → AxisUnit) :
    (d.modAxis k f).axis j = if j = k then f (d.axis k) else d.axis j := uget_uset ..
theorem Dev.modComm_comm (d : Dev) (k j : Nat) (f : CommUnit → CommUnit) :
    (d.modComm k f).comm j = if j = k then f (d.comm k) else d.comm j := by
  unfold Dev.comm Dev.modComm
  rw [Dev.modAxis_axis]
  split <;> rfl
theorem Dev.modBank_bank (d : Dev) (b j : Nat) (f : BankUnit → BankUnit) :
    (d.modBank b f).bank j = if j = b then f (d.bank b) else d.bank j := uget_uset ..
theorem Dev.modAcc_acc (d : Dev) (n j : Nat) (f : AccUnit → AccUnit) :
    (d.modAcc n f).acc j = if j = n then f (d.acc n) else d.acc j := uget_uset ..
theorem Dev.modFbk_fbk (d : Dev) (u j : Nat) (f : FbkUnit → FbkUnit) :
    (d.modFbk u f).fbk j = if j = u then f (d.fbk u) else d.fbk j := uget_uset ..
theorem Dev.modEng_eng (d : Dev) (e j : Nat) (f : EngUnit → EngUnit) :
    (d.modEng e f).eng j = if j = e then f (d.eng e) else d.eng j := uget_uset ..
theorem Dev.modRun_eng (d : Dev) (e j : Nat) (f : EngRun → EngRun) :
    (d.modRun e f).eng j = if j = e then { d.eng e with run := f (d.eng e).run } else d.eng j := uget_uset ..
theorem Dev.modCtl_ctl (d : Dev) (c j : Nat) (f : CanCtl → CanCtl) :
    (d.modCtl c f).ctl j = if j = c then f (d.ctl c) else d.ctl j := uget_uset ..
theorem Vent.modAxis_axis (v : Vent) (k j : Nat) (f : VAxis → VAxis) :
    (v.modAxis k f).axis j = if j = k then f (v.axis k) else v.axis j := uget_uset ..
theorem Vent.modLeg_leg (v : Vent) (l j : Nat) (f : VLeg → VLeg) :
    (v.modLeg l f).leg j = if j = l then f (v.leg l) else v.leg j := uget_uset ..
theorem Vent.modBrake_brake (v : Vent) (b j : Nat) (f : VBrake → VBrake) :
    (v.modBrake b f).brake j = if j = b then f (v.brake b) else v.brake j := uget_uset ..

/-- A register after a write of a register. -/
theorem Dev.reg_setReg (d : Dev) (a b : Nat) (w : Word) : (d.setReg a w).reg b = if b = a then w else d.reg b :=
  tget_tset ..

/-- A Caldera word after a write of one. -/
theorem Dev.cal_setCal (d : Dev) (a b : Nat) (w : Word) : (d.setCal a w).cal b = if b = a then w else d.cal b :=
  tget_tset ..

/-- A field reads as it was written, modulo its width. -/
theorem Dev.get_put_same (d : Dev) (f : Fld) (i v : Nat) (h : f.lo + f.width ≤ 40) :
    (d.put f i v).get f i = v % 2 ^ f.width := by
  unfold Dev.get Dev.put
  rw [Dev.reg_setReg, if_pos rfl, fget_fput_same _ _ _ _ h]

/-- A write of a field leaves the fields of other registers and the fields beside it. -/
theorem Dev.get_put_other (d : Dev) (f g : Fld) (i j v : Nat) (h : f.lo + f.width ≤ 40)
    (hd : g.at_ j ≠ f.at_ i ∨ g.lo + g.width ≤ f.lo ∨ f.lo + f.width ≤ g.lo) :
    (d.put f i v).get g j = d.get g j := by
  unfold Dev.get Dev.put
  rw [Dev.reg_setReg]
  split
  · rename_i he
    rw [fget_fput_disjoint _ _ _ _ _ _ h (by omega), he]
  · rfl

/-- A write of a register leaves the fields of every other register. -/
theorem Dev.get_setReg_ne (d : Dev) (a : Nat) (w : Word) (g : Fld) (j : Nat) (h : g.at_ j ≠ a) :
    (d.setReg a w).get g j = d.get g j := by
  unfold Dev.get
  rw [Dev.reg_setReg, if_neg h]

/-- A write of a register leaves every other register. -/
theorem Dev.reg_put_ne (d : Dev) (f : Fld) (i v a : Nat) (h : a ≠ f.at_ i) : (d.put f i v).reg a = d.reg a := by
  unfold Dev.put
  rw [Dev.reg_setReg, if_neg h]

/-- Raising an event changes no register but its status register. -/
theorem Dev.reg_raise_ne (d : Dev) (n a : Nat) (h : a ≠ F.EVT_STAT.at_ (n / 32)) : (d.raise n).reg a = d.reg a :=
  Dev.reg_put_ne _ _ _ _ _ h

/-! ### Caldera keeps its canonical form -/

theorem Dev.setCal_wf (d : Dev) (a : Nat) (w : Word) (h : Memory.wf d.con.mem = true) :
    Memory.wf (d.setCal a w).con.mem = true := twf_tset _ _ _ _ h

theorem Dev.modCon_wf (d : Dev) (f : Conduit → Conduit) (hf : ∀ c, (f c).mem = c.mem)
    (h : Memory.wf d.con.mem = true) : Memory.wf (d.modCon f).con.mem = true := by
  unfold Dev.modCon
  simpa [hf] using h

/-! ### Outcomes -/

/-- A lifted update always answers a next state, with the Sinter array and the queue as they were. -/
theorem State.lift_next (s : State) (f : Dev → Dev) : s.lift f = .next { s with dev := f s.dev } := rfl

end Sys2Proof.Machine
end

