-- ==== Sys2Proof/Laws/Conduit.lean ====
section
/-! SUPPORT. What the arbiter's operations change, and that Caldera keeps its canonical form. -/

namespace Sys2Proof.Machine

/-- An update over a list of indices keeps what each of its steps keeps. -/
theorem Dev.each_keeps {α : Type} (p : Dev → α) (f : Nat → Dev → Dev) (hf : ∀ i d, p (f i d) = p d) (l : List Nat)
    (d : Dev) : p (d.each l f) = p d := by
  unfold Dev.each
  induction l generalizing d with
  | nil => rfl
  | cons i l ih => rw [List.foldl_cons, ih, hf]

/-- An update over a list of indices keeps an invariant that each of its steps keeps. -/
theorem Dev.each_inv (p : Dev → Prop) (f : Nat → Dev → Dev) (hf : ∀ i d, p d → p (f i d)) (l : List Nat)
    (d : Dev) (h : p d) : p (d.each l f) := by
  unfold Dev.each
  induction l generalizing d with
  | nil => exact h
  | cons i l ih => rw [List.foldl_cons]; exact ih _ (hf _ _ h)

/-- The count of full queues touches its register alone. -/
theorem Dev.addQfull_only (d : Dev) (n : Nat) :
    d.addQfull n = { d with regs := (d.addQfull n).regs } ∧ ∀ a, a ≠ F.CON_CNT.at_ 0 → (d.addQfull n).reg a = d.reg a := by
  unfold Dev.addQfull
  split
  · exact ⟨rfl, fun _ _ => rfl⟩
  · exact ⟨rfl, fun a ha => Dev.reg_put_ne _ _ _ _ _ ha⟩

/-- The count of full queues leaves the arbiter. -/
@[simp] theorem Dev.addQfull_con (d : Dev) (n : Nat) : (d.addQfull n).con = d.con := by rw [(d.addQfull_only n).1]

/-- Requests that leave a queue touch the arbiter's queues and the count of full queues alone. -/
theorem Dev.leaveQueue_only (d : Dev) (b : Nat) (p : Req → Bool) :
    d.leaveQueue b p = { d with con := (d.leaveQueue b p).con, regs := (d.leaveQueue b p).regs } ∧
      (d.leaveQueue b p).con.mem = d.con.mem ∧ ∀ a, a ≠ F.CON_CNT.at_ 0 → (d.leaveQueue b p).reg a = d.reg a := by
  unfold Dev.leaveQueue
  simp only []
  refine ⟨?_, ?_, fun a ha => (Dev.addQfull_only _ _).2 a ha⟩
  · rw [(Dev.addQfull_only _ _).1]; rfl
  · rw [Dev.addQfull_con]; rfl

/-- A word after a write of a word. -/
theorem Dev.cal_conWrite (d : Dev) (a b : Nat) (w : Word) : (d.conWrite a w).cal b = if b = a then w else d.cal b :=
  Dev.cal_setCal d a b w

/-- A write touches the arbiter and its words alone. -/
theorem Dev.conWrite_only (d : Dev) (a : Nat) (w : Word) : d.conWrite a w = { d with con := (d.conWrite a w).con } := rfl

theorem Dev.conWrite_wf (d : Dev) (a : Nat) (w : Word) (h : Memory.wf d.con.mem = true) :
    Memory.wf (d.conWrite a w).con.mem = true := Dev.modCon_wf _ _ (fun _ => rfl) (d.setCal_wf a w h)

theorem Dev.conWrites_wf (l : List (Nat × Word)) (d : Dev) (h : Memory.wf d.con.mem = true) :
    Memory.wf (d.conWrites l).con.mem = true := by
  unfold Dev.conWrites
  induction l generalizing d with
  | nil => exact h
  | cons p l ih => exact ih _ (d.conWrite_wf _ _ h)

/-- The stores of a list that have been granted are written; nothing but the arbiter and its words changes. -/
theorem Dev.storesDone_only (l : List Req) (q : Nat) (d : Dev) :
    let x := l.foldl (fun d r => match r.kind, r.at_ with
      | .store w, some _ => if r.req = q then d.conWrite r.addr w else d
      | _, _ => d) d
    x = { d with con := x.con } ∧ (Memory.wf d.con.mem = true → Memory.wf x.con.mem = true) := by
  induction l generalizing d with
  | nil => exact ⟨rfl, id⟩
  | cons r l ih =>
    simp only [List.foldl_cons]
    split
    · split
      · rename_i w _ _ _ _
        obtain ⟨h1, h2⟩ := ih (d.conWrite r.addr w)
        exact ⟨h1.trans rfl, fun h => h2 (d.conWrite_wf _ _ h)⟩
      · exact ih d
    · exact ih d

/-- Withdrawing requests touches the arbiter and the count of full queues alone, and keeps the canonical form. -/
theorem Dev.withdraw_only (d : Dev) (q : Nat) :
    d.withdraw q = { d with con := (d.withdraw q).con, regs := (d.withdraw q).regs } ∧
      (∀ a, a ≠ F.CON_CNT.at_ 0 → (d.withdraw q).reg a = d.reg a) ∧
      (Memory.wf d.con.mem = true → Memory.wf (d.withdraw q).con.mem = true) := by
  unfold Dev.withdraw
  refine Dev.each_inv (fun x => x = { d with con := x.con, regs := x.regs } ∧
    (∀ a, a ≠ F.CON_CNT.at_ 0 → x.reg a = d.reg a) ∧
    (Memory.wf d.con.mem = true → Memory.wf x.con.mem = true)) _ (fun i x h => ?_) _ d ⟨rfl, fun _ _ => rfl, id⟩
  split
  · obtain ⟨g1, g2⟩ := Dev.storesDone_only (x.queue i) q x
    simp only [] at g1 g2 ⊢
    generalize (x.queue i).foldl _ x = y at g1 g2 ⊢
    obtain ⟨h1, h2, h3⟩ := y.leaveQueue_only i fun r => r.req == q
    refine ⟨?_, fun a ha => ?_, fun hw => ?_⟩
    · rw [h1, g1, h.1]
    · rw [h3 a ha]
      refine Eq.trans ?_ (h.2.1 a ha)
      rw [g1]; rfl
    · rw [h2]; exact g2 (h.2.2 hw)
  · exact h

/-- Withdrawing requests writes no word where the requester has none. -/
theorem Dev.withdraw_none (d : Dev) (q : Nat) (h : ∀ b, (d.queue b).any (fun x => x.req == q) = false) :
    d.withdraw q = d := by
  unfold Dev.withdraw Dev.each
  generalize List.range 16 = l
  induction l with
  | nil => rfl
  | cons i l ih => rw [List.foldl_cons]; beta_reduce; rw [if_neg (by rw [h i]; decide)]; exact ih

/-! ### Arbitration -/

/-- The end of a parking writes no word. -/
theorem Dev.unpark_mem (d : Dev) (b q t : Nat) : (d.unpark b q t).con.mem = d.con.mem := by
  unfold Dev.unpark
  split
  · rfl
  · simp only []
    split <;> rfl

/-- A half of a checkpoint that loses VALID keeps the canonical form. -/
theorem Dev.clearHalf_wf (d : Dev) (x : Burst) (h : Memory.wf d.con.mem = true) :
    Memory.wf (d.clearHalf x).con.mem = true := d.conWrite_wf _ _ h

/-- A word of a checkpoint burst keeps the canonical form. -/
theorem Dev.burstWord_wf (d : Dev) (e t : Nat) (h : Memory.wf d.con.mem = true) :
    Memory.wf (d.burstWord e t).con.mem = true := by
  unfold Dev.burstWord
  split
  · exact h
  · rename_i x _
    have h0 : Memory.wf (if x.next = 0 then d.clearHalf x else d).con.mem = true := by
      split
      · exact d.clearHalf_wf x h
      · exact h
    simp only []
    split <;> exact Dev.conWrite_wf _ _ _ h0

/-- A grant keeps the canonical form. -/
theorem Dev.grant_wf (d : Dev) (b t : Nat) (r : Req) (h : Memory.wf d.con.mem = true) :
    Memory.wf (d.grant b t r).con.mem = true := by
  have hu : Memory.wf (d.unpark b r.req t).con.mem = true := by rw [Dev.unpark_mem]; exact h
  unfold Dev.grant
  split
  · simp only []
    split
    · exact hu
    · rw [Dev.unpark_mem]; exact hu
  · exact Dev.burstWord_wf _ _ _ hu
  · rw [Dev.addQfull_con]; exact h

/-- Arbitrations keep the canonical form. -/
theorem Dev.arbSteps_wf (n : Nat) (d : Dev) (t : Nat) (h : Memory.wf d.con.mem = true) :
    Memory.wf (d.arbSteps t n).con.mem = true := by
  induction n generalizing d with
  | zero => exact h
  | succ n ih =>
    unfold Dev.arbSteps
    split
    · exact h
    · split
      · exact h
      · exact ih _ (Dev.grant_wf _ _ _ _ h)

/-- With nothing to grant, no arbitration changes anything. -/
theorem Dev.arbTo_quiet (d : Dev) (t : Nat) (h : d.waits = 0) : d.arbTo t = d := by unfold Dev.arbTo; rw [h]; rfl

/-! ### Time -/

/-- The angle generators and the clock leave the arbiter and its words. -/
theorem Dev.runOn_con (d : Dev) (n : Nat) : (d.runOn n).con = d.con := by
  unfold Dev.runOn
  split
  · rfl
  · show (Dev.each _ (List.range 8) fun k x => if (x.comm k).rate = 0 then x else x.modComm k _).con = _
    rw [Dev.each_keeps Dev.con _ (fun i x => by split <;> rfl)]

/-- A command line that falls leaves the arbiter and its words. -/
theorem Dev.lineDown_con (d : Dev) (l : Nat) (high other : Bool) : (d.lineDown l high other).con = d.con := by
  have hf : ∀ (y : Dev) (o : Bool) (ls : List Nat),
      (ls.foldl (fun d m => d.modVent fun v => v.lineFall d.clk.now m high o) y).con = y.con := fun y o ls =>
    Dev.each_keeps Dev.con (fun m d => d.modVent fun v => v.lineFall d.clk.now m high o) (fun _ _ => rfl) ls y
  unfold Dev.lineDown
  cases high <;> simp only [if_true, Bool.false_eq_true, if_false] <;> split <;> first | rfl | exact hf _ _ _

/-- The lines of an axis that has left RUN leave the arbiter and its words. -/
theorem Dev.dropLines_con (d : Dev) : d.dropLines.con = d.con := by
  unfold Dev.dropLines
  refine Dev.each_keeps Dev.con _ (fun l x => ?_) _ d
  split
  · show ((x.lineDown l true false).lineDown l false false).con = x.con
    rw [Dev.lineDown_con, Dev.lineDown_con]
  · rfl

/-- Time that passes keeps the canonical form. -/
theorem Dev.advance_wf (d : Dev) (n : Nat) (h : Memory.wf d.con.mem = true) : Memory.wf (d.advance n).con.mem = true := by
  unfold Dev.advance
  refine Dev.arbSteps_wf _ _ _ ?_
  split
  · rw [Dev.runOn_con, Dev.dropLines_con, Dev.runOn_con]; exact h
  · rw [Dev.runOn_con]; exact h

/-- The number of grants that are asked for depends on the arbiter and the engines alone. -/
theorem Dev.waits_congr {a b : Dev} (hc : a.con = b.con) (he : a.engs = b.engs) : a.waits = b.waits := by
  unfold Dev.waits; rw [hc, he]

/-- Where no axis has just left RUN and no requester waits for a grant, time passes for the clock and the angle generators
alone. -/
theorem Dev.advance_quiet (d : Dev) (n : Nat) (hl : d.legs.any (fun p => p.2.leaving) = false) (hw : d.waits = 0) :
    d.advance n = d.runOn n := by
  have he : (d.runOn n).engs = d.engs := by
    unfold Dev.runOn
    split
    · rfl
    · show (Dev.each _ (List.range 8) fun k x => if (x.comm k).rate = 0 then x else x.modComm k _).engs = _
      rw [Dev.each_keeps Dev.engs _ (fun i x => by split <;> rfl)]
  unfold Dev.advance
  rw [if_neg (show ¬(n ≠ 0 ∧ (d.legs.any fun p => p.2.leaving) = true) by simp [hl])]
  exact Dev.arbTo_quiet _ _ ((Dev.waits_congr (d.runOn_con n) he).trans hw)

/-! ### Reservations -/

/-- A reservation that is dropped writes no word. -/
theorem Dev.dropResv_mem (d : Dev) (q : Nat) : (d.dropResv q).con.mem = d.con.mem := by
  unfold Dev.dropResv
  simp only []
  exact Dev.each_keeps (fun x : Dev => x.con.mem) (fun b x => x.setBusy b x.clk.now x.clk.now) (fun _ _ => rfl) _ _

/-- A reservation that waits for its banks keeps the canonical form. -/
theorem Dev.awaitBanks_wf (n : Nat) (d : Dev) (q : Nat) (h : Memory.wf d.con.mem = true) :
    Memory.wf (d.awaitBanks q n).con.mem = true := by
  induction n generalizing d with
  | zero => exact h
  | succ n ih =>
    unfold Dev.awaitBanks
    split
    · exact h
    · split
      · exact h
      · split
        · exact h
        · exact ih _ (d.advance_wf _ h)

/-- A released reservation keeps the canonical form (R333). -/
theorem Dev.release_wf (d : Dev) (q : Nat) (h : Memory.wf d.con.mem = true) :
    Memory.wf (d.release q).con.mem = true := by
  have hw := Dev.awaitBanks_wf d.waits d q h
  unfold Dev.release
  simp only []
  split
  · exact hw
  · split
    · refine Dev.conWrites_wf _ _ ?_
      rw [Dev.dropResv_mem]; exact hw
    · exact hw

/-- The device lists nothing at reset. -/
theorem State.reset_mem_wf : Memory.wf State.reset.dev.con.mem = true := by decide

end Sys2Proof.Machine
end

