-- ==== Sys2Proof/Laws/Engine.lean ====
section
/-! SUPPORT. The registers and flags of an engine run, and what the issue of one instruction can do. -/

namespace Sys2Proof.Machine

/-! ### Registers and flags of a run -/

/-- A flag after a write of a flag. -/
theorem EngRun.flag_setFlag (r : EngRun) (a j : Nat) (b : Bool) (ha : a < 16) :
    (r.setFlag a b).flag j = if j = a then b else r.flag j := by
  unfold EngRun.flag EngRun.setFlag
  cases b
  · simp only [Bool.false_eq_true, ↓reduceIte, BitVec.getLsbD_and, BitVec.getLsbD_not, BitVec.getLsbD_shiftLeft]
    by_cases hj : j = a
    · subst hj; simp
    · simp only [hj, if_false]
      by_cases h16 : j < 16
      · by_cases hlt : j < a
        · simp [h16, hlt]
        · have h0 : (1#16).getLsbD (j - a) = false := by simp [BitVec.getLsbD_one]; omega
          simp [h16, hlt, h0]
      · simp [BitVec.getLsbD_of_ge _ _ (Nat.le_of_not_lt h16)]
  · simp only [↓reduceIte, BitVec.getLsbD_or, BitVec.getLsbD_shiftLeft]
    by_cases hj : j = a
    · subst hj; simp [ha]
    · simp only [hj, if_false]
      by_cases h16 : j < 16
      · by_cases hlt : j < a
        · simp [hlt]
        · have h0 : (1#16).getLsbD (j - a) = false := by simp [BitVec.getLsbD_one]; omega
          simp [h0]
      · simp [BitVec.getLsbD_of_ge _ _ (Nat.le_of_not_lt h16)]
        omega

/-- A register after a write of a register. -/
theorem EngRun.W_setW (r : EngRun) (n j : Nat) (v : Word) : (r.setW n v).W j = if j = n then v else r.W j := uget_uset ..

/-- A pointer after a write of a pointer. -/
theorem EngRun.P_setP (r : EngRun) (n j v : Nat) : (r.setP n v).P j = if j = n then v % 65536 else r.P j := uget_uset ..

/-- An accumulator after a write of one. -/
theorem EngRun.Z_setZ (r : EngRun) (n j : Nat) (v : BitVec 88) (hn : n < 2) (hj : j < 2) :
    (r.setZ n v).Z j = if j = n then v else r.Z j := by
  obtain rfl | rfl : n = 0 ∨ n = 1 := by omega
  all_goals obtain rfl | rfl : j = 0 ∨ j = 1 := by omega
  all_goals simp [EngRun.setZ, EngRun.Z]

@[simp] theorem EngRun.setFlag_W (r : EngRun) (a : Nat) (b : Bool) (j : Nat) : (r.setFlag a b).W j = r.W j := rfl
@[simp] theorem EngRun.setFlag_Z (r : EngRun) (a : Nat) (b : Bool) (j : Nat) : (r.setFlag a b).Z j = r.Z j := rfl
@[simp] theorem EngRun.setFlag_P (r : EngRun) (a : Nat) (b : Bool) (j : Nat) : (r.setFlag a b).P j = r.P j := rfl
@[simp] theorem EngRun.setFlag_loop (r : EngRun) (a : Nat) (b : Bool) : (r.setFlag a b).loop = r.loop := rfl
@[simp] theorem EngRun.setFlag_pc (r : EngRun) (a : Nat) (b : Bool) : (r.setFlag a b).pc = r.pc := rfl
@[simp] theorem EngRun.setFlag_lc (r : EngRun) (a : Nat) (b : Bool) : (r.setFlag a b).lc = r.lc := rfl
@[simp] theorem EngRun.setW_flag (r : EngRun) (n : Nat) (v : Word) (j : Nat) : (r.setW n v).flag j = r.flag j := rfl
@[simp] theorem EngRun.setW_Z (r : EngRun) (n : Nat) (v : Word) (j : Nat) : (r.setW n v).Z j = r.Z j := rfl
@[simp] theorem EngRun.setW_P (r : EngRun) (n : Nat) (v : Word) (j : Nat) : (r.setW n v).P j = r.P j := rfl
@[simp] theorem EngRun.setP_W (r : EngRun) (n v j : Nat) : (r.setP n v).W j = r.W j := rfl
@[simp] theorem EngRun.setP_flag (r : EngRun) (n v j : Nat) : (r.setP n v).flag j = r.flag j := rfl
@[simp] theorem EngRun.setP_Z (r : EngRun) (n v j : Nat) : (r.setP n v).Z j = r.Z j := rfl
@[simp] theorem EngRun.setZ_W (r : EngRun) (n j : Nat) (v : BitVec 88) : (r.setZ n v).W j = r.W j := by
  unfold EngRun.setZ; split <;> rfl
@[simp] theorem EngRun.setZ_P (r : EngRun) (n j : Nat) (v : BitVec 88) : (r.setZ n v).P j = r.P j := by
  unfold EngRun.setZ; split <;> rfl
@[simp] theorem EngRun.setZ_flag (r : EngRun) (n j : Nat) (v : BitVec 88) : (r.setZ n v).flag j = r.flag j := by
  unfold EngRun.setZ; split <;> rfl

/-- A pointer after the post-increment of LD, ST, LDF and STF. -/
theorem EngRun.P_postInc (r : EngRun) (n j : Nat) (inc : Bool) :
    (r.postInc n inc).P j = if inc = true ∧ j = n then (r.P n + 1) % 65536 else r.P j := by
  unfold EngRun.postInc
  cases inc
  · simp
  · simp [EngRun.P_setP]

@[simp] theorem EngRun.postInc_W (r : EngRun) (n j : Nat) (inc : Bool) : (r.postInc n inc).W j = r.W j := by
  unfold EngRun.postInc; split <;> rfl
@[simp] theorem EngRun.postInc_Z (r : EngRun) (n j : Nat) (inc : Bool) : (r.postInc n inc).Z j = r.Z j := by
  unfold EngRun.postInc; split <;> rfl
@[simp] theorem EngRun.postInc_flag (r : EngRun) (n j : Nat) (inc : Bool) : (r.postInc n inc).flag j = r.flag j := by
  unfold EngRun.postInc; split <;> rfl

/-- ZN writes Z and N alone. -/
theorem EngRun.flag_zn (r : EngRun) (v : Word) (j : Nat) :
    (r.zn v).flag j = if j = fN then v.getLsbD 39 else if j = fZ then decide (v = 0#40) else r.flag j := by
  unfold EngRun.zn
  rw [EngRun.flag_setFlag _ _ _ _ (by decide), EngRun.flag_setFlag _ _ _ _ (by decide)]
  rfl

/-- V=s writes V, and SAT when it clamped. -/
theorem EngRun.flag_vs (r : EngRun) (c : Bool) (j : Nat) :
    (r.vs c).flag j = if j = fV then c else if j = fSat then (r.flag fSat || c) else r.flag j := by
  unfold EngRun.vs
  cases c
  · simp only [Bool.false_eq_true, ↓reduceIte, Bool.or_false]
    rw [EngRun.flag_setFlag _ _ _ _ (by decide)]
    split <;> [rfl; (split <;> simp_all)]
  · simp only [↓reduceIte, Bool.or_true]
    rw [EngRun.flag_setFlag _ _ _ _ (by decide), EngRun.flag_setFlag _ _ _ _ (by decide)]
    by_cases h1 : j = fV
    · subst h1; simp [fV, fSat]
    · by_cases h2 : j = fSat <;> simp [h1, h2]

@[simp] theorem EngRun.zn_W (r : EngRun) (v : Word) (j : Nat) : (r.zn v).W j = r.W j := rfl
@[simp] theorem EngRun.zn_Z (r : EngRun) (v : Word) (j : Nat) : (r.zn v).Z j = r.Z j := rfl
@[simp] theorem EngRun.zn_P (r : EngRun) (v : Word) (j : Nat) : (r.zn v).P j = r.P j := rfl
@[simp] theorem EngRun.vs_W (r : EngRun) (c : Bool) (j : Nat) : (r.vs c).W j = r.W j := by
  unfold EngRun.vs; cases c <;> rfl
@[simp] theorem EngRun.vs_Z (r : EngRun) (c : Bool) (j : Nat) : (r.vs c).Z j = r.Z j := by
  unfold EngRun.vs; cases c <;> rfl
@[simp] theorem EngRun.vs_P (r : EngRun) (c : Bool) (j : Nat) : (r.vs c).P j = r.P j := by
  unfold EngRun.vs; cases c <;> rfl

/-! ### Retirement -/

@[simp] theorem EngRun.next_W (r : EngRun) (j : Nat) : r.next.W j = r.W j := by
  unfold EngRun.next; repeat' split
  all_goals rfl
@[simp] theorem EngRun.next_Z (r : EngRun) (j : Nat) : r.next.Z j = r.Z j := by
  unfold EngRun.next; repeat' split
  all_goals rfl
@[simp] theorem EngRun.next_P (r : EngRun) (j : Nat) : r.next.P j = r.P j := by
  unfold EngRun.next; repeat' split
  all_goals rfl
@[simp] theorem EngRun.next_flag (r : EngRun) (j : Nat) : r.next.flag j = r.flag j := by
  unfold EngRun.next; repeat' split
  all_goals rfl

/-! ### What a run keeps -/

/-- A run without the registers, flags and accumulators that arithmetic writes. -/
def EngRun.core (r : EngRun) : EngRun := { r with w := [], flags := 0, z0 := 0, z1 := 0, p := [], lc := 0 }

@[simp] theorem EngRun.core_setW (r : EngRun) (n : Nat) (v : Word) : (r.setW n v).core = r.core := rfl
@[simp] theorem EngRun.core_setFlag (r : EngRun) (n : Nat) (b : Bool) : (r.setFlag n b).core = r.core := rfl
@[simp] theorem EngRun.core_setP (r : EngRun) (n v : Nat) : (r.setP n v).core = r.core := rfl
@[simp] theorem EngRun.core_setZ (r : EngRun) (n : Nat) (v : BitVec 88) : (r.setZ n v).core = r.core := by
  unfold EngRun.setZ; split <;> rfl
@[simp] theorem EngRun.core_zn (r : EngRun) (v : Word) : (r.zn v).core = r.core := rfl
@[simp] theorem EngRun.core_vs (r : EngRun) (c : Bool) : (r.vs c).core = r.core := by
  unfold EngRun.vs; cases c <;> rfl
@[simp] theorem EngRun.core_postInc (r : EngRun) (n : Nat) (inc : Bool) : (r.postInc n inc).core = r.core := by
  unfold EngRun.postInc; split <;> rfl

@[simp] theorem EngRun.setW_lc (r : EngRun) (n : Nat) (v : Word) : (r.setW n v).lc = r.lc := rfl
@[simp] theorem EngRun.setP_lc (r : EngRun) (n v : Nat) : (r.setP n v).lc = r.lc := rfl
@[simp] theorem EngRun.setZ_lc (r : EngRun) (n : Nat) (v : BitVec 88) : (r.setZ n v).lc = r.lc := by
  unfold EngRun.setZ; split <;> rfl
@[simp] theorem EngRun.zn_lc (r : EngRun) (v : Word) : (r.zn v).lc = r.lc := rfl
@[simp] theorem EngRun.vs_lc (r : EngRun) (c : Bool) : (r.vs c).lc = r.lc := by
  unfold EngRun.vs; cases c <;> rfl
@[simp] theorem EngRun.postInc_lc (r : EngRun) (n : Nat) (inc : Bool) : (r.postInc n inc).lc = r.lc := by
  unfold EngRun.postInc; split <;> rfl

/-- A run with the same core differs in registers, flags and accumulators alone. -/
theorem EngRun.eq_of_core {a b : EngRun} (h : b.core = a.core) :
    b = { a with w := b.w, flags := b.flags, z0 := b.z0, z1 := b.z1, p := b.p, lc := b.lc } := by
  cases a; cases b; simp [EngRun.core] at h ⊢; simp [h]

/-! ### The three kinds of result -/

theorem fZ_lt : fZ < 16 := by decide
theorem fN_lt : fN < 16 := by decide
theorem fC_lt : fC < 16 := by decide
theorem fV_lt : fV < 16 := by decide
theorem fSat_lt : fSat < 16 := by decide

/-- A wrapping result: Wd, Z, N, C and V. -/
theorem EngRun.wrapAdd_holds (r : EngRun) (dn : Nat) (x : Int) (c : Bool) :
    (r.wrapAdd dn x c).holdsZN dn (wordI x) ∧ (r.wrapAdd dn x c).holdsCV c (wraps40 x) := by
  unfold EngRun.wrapAdd EngRun.holdsZN EngRun.holdsCV
  simp only [EngRun.flag_setFlag _ _ _ _ fV_lt, EngRun.flag_setFlag _ _ _ _ fC_lt, EngRun.flag_zn, EngRun.setFlag_W,
    EngRun.zn_W, EngRun.W_setW]
  exact ⟨⟨rfl, rfl, rfl⟩, rfl, rfl⟩

/-- A clamped result: Wd, Z, N, C, V and SAT. -/
theorem EngRun.satResult_holds (r : EngRun) (dn : Nat) (x : Int × Bool) (c : Bool) :
    (r.satResult dn x c).holdsZN dn (wordI x.1) ∧ (r.satResult dn x c).flag fC = c ∧
      (r.satResult dn x c).clampedVs r x.2 := by
  unfold EngRun.satResult EngRun.holdsZN EngRun.clampedVs
  simp only [EngRun.flag_vs, EngRun.flag_setFlag _ _ _ _ fC_lt, EngRun.flag_zn, EngRun.setFlag_W,
    EngRun.zn_W, EngRun.vs_W, EngRun.W_setW]
  exact ⟨⟨rfl, rfl, rfl⟩, rfl, rfl, rfl⟩

/-- A result with V = 0: Wd, Z, N and C. -/
theorem EngRun.plainResult_holds (r : EngRun) (dn : Nat) (v : Word) (c : Bool) :
    (r.plainResult dn v c).holdsZN dn v ∧ (r.plainResult dn v c).holdsCV c false := by
  unfold EngRun.plainResult EngRun.holdsZN EngRun.holdsCV
  simp only [EngRun.flag_setFlag _ _ _ _ fV_lt, EngRun.flag_setFlag _ _ _ _ fC_lt, EngRun.flag_zn, EngRun.setFlag_W,
    EngRun.zn_W, EngRun.W_setW]
  exact ⟨⟨rfl, rfl, rfl⟩, rfl, rfl⟩

@[simp] theorem EngRun.next_holdsZN (r : EngRun) (n : Nat) (v : Word) : r.next.holdsZN n v ↔ r.holdsZN n v := by
  unfold EngRun.holdsZN; simp
@[simp] theorem EngRun.next_holdsCV (r : EngRun) (c v : Bool) : r.next.holdsCV c v ↔ r.holdsCV c v := by
  unfold EngRun.holdsCV; simp
@[simp] theorem EngRun.next_clampedVs (r a : EngRun) (c : Bool) : r.next.clampedVs a c ↔ r.clampedVs a c := by
  unfold EngRun.clampedVs; simp

/-- The clamp of R3 as the nearer of its ends. -/
theorem satP32_eq (x : Int) : satP32 x = max p32Min (min p32Max x) := by
  unfold satP32 clampI
  have : p32Min ≤ p32Max := by decide
  split <;> [omega; (split <;> omega)]

/-! ### The issue -/

/-- What the issue stage does with a ready, legal instruction that retires before the deadline. -/
theorem Dev.issueRaw_ready {d : Dev} {op : Nat} {i : Issue} {srcs : List Nat} (h : Ready d i srcs) (n : Nat) (body : Dev → Dev)
    (hw : d.pword i.eng = i.word op) (ht : (d.run i.eng).issueAt srcs + n ≤ d.deadlineIn i.eng)
    (hf : fieldsOk op i = true) :
    d.issueRaw op i true srcs n body = body (d.modRun i.eng fun r => { r with cyc := r.issueAt srcs + n }) := by
  have h1 := h.awake; have h2 := h.live; have h3 := h.waits; have h4 := h.inCode; have h5 := h.fetch
  unfold Dev.run at h2 h3 h4 ht
  have hl : d.tooLate i.eng op (((d.eng i.eng).run).issueAt srcs) n = false := by
    unfold Dev.tooLate; rw [decide_eq_false_iff_not]; omega
  unfold Dev.issueRaw
  simp only [h1, h2, h3, h5, Bool.not_true, Bool.or_self, Bool.false_eq_true, ↓reduceIte, reduceCtorEq, hw, hf, hl,
    Bool.and_self, ne_eq, not_true_eq_false]
  rw [if_neg (by omega), if_neg (by omega)]
  rfl

/-- An illegal field ends the run with cause OPCODE (R202). -/
theorem Dev.issueRaw_illegal {d : Dev} {op : Nat} {i : Issue} {srcs : List Nat} {also : Bool} (h : Ready d i srcs) (n : Nat)
    (body : Dev → Dev) (hw : d.pword i.eng = i.word op) (ht : (d.run i.eng).issueAt srcs + 1 ≤ d.deadlineIn i.eng)
    (hf : (fieldsOk op i && also) = false) :
    d.issueRaw op i also srcs n body = d.overrun i.eng 3 := by
  have h1 := h.awake; have h2 := h.live; have h3 := h.waits; have h4 := h.inCode; have h5 := h.fetch
  unfold Dev.run at h2 h3 h4 ht
  unfold Dev.issueRaw
  simp only [h1, h2, h3, h5, Bool.not_true, Bool.or_self, Bool.false_eq_true, ↓reduceIte, reduceCtorEq, hw, hf, Bool.not_false,
    ne_eq, not_true_eq_false]
  rw [if_neg (by omega), if_neg (by omega)]
  unfold Dev.endsAt
  rw [if_neg (by omega)]

theorem Dev.modRun_run (d : Dev) (e j : Nat) (f : EngRun → EngRun) :
    (d.modRun e f).run j = if j = e then f (d.run e) else d.run j := by
  unfold Dev.run; rw [Dev.modRun_eng]; split <;> rfl

/-- An instruction whose work ends in an update of its run retires; `base` is the state with everything else that it did. -/
theorem Dev.issue_step {d B base : Dev} {op : Nat} {i : Issue} {srcs : List Nat} (h : Ready d i srcs) (n : Nat)
    (body : Dev → Dev) (f : EngRun → EngRun) (ws fs zs ps : List Nat)
    (hword : d.pword i.eng = i.word op) (ht : (d.run i.eng).issueAt srcs + n ≤ d.deadlineIn i.eng)
    (hlegal : fieldsOk op i = true)
    (hb : body (d.modRun i.eng fun r => { r with cyc := r.issueAt srcs + n }) = B.modRun i.eng f)
    (hdev : B = { base with engs := B.engs })
    (hothers : ∀ j, j ≠ i.eng.val → B.eng j = base.eng j)
    (hunit : B.eng i.eng = { base.eng i.eng with run := { base.run i.eng with cyc := (d.run i.eng).issueAt srcs + n } })
    (hlive : (base.run i.eng).live = true)
    (hc : ∀ r, (f r).core = r.core)
    (hw : ∀ r j, j ∉ ws → (f r).W j = r.W j)
    (hfl : ∀ r j, j < 16 → j ∉ fs → (f r).flag j = r.flag j)
    (hz : ∀ r j, j < 2 → j ∉ zs → (f r).Z j = r.Z j)
    (hp : ∀ r j, j ∉ ps → (f r).P j = r.P j) :
    RunStep base (d.issue op i srcs n body) i.eng ws fs zs ps ((d.run i.eng).issueAt srcs + n) ∧
    (d.issue op i srcs n body).run i.eng =
      (f { base.run i.eng with cyc := (d.run i.eng).issueAt srcs + n }).next := by
  set r0 : EngRun := { base.run i.eng with cyc := (d.run i.eng).issueAt srcs + n } with hr0
  have hf := fun r => EngRun.eq_of_core (hc r)
  have hBrun : B.run i.eng = r0 := by unfold Dev.run; rw [hunit]
  have hl : (f r0).live = true := by rw [hf r0]; exact hlive
  have e1 : d.issue op i srcs n body = (B.modRun i.eng f).modRun i.eng EngRun.next := by
    unfold Dev.issue
    rw [Dev.issueRaw_ready h n _ hword ht hlegal]
    simp only [hb]
    rw [if_pos]
    show ((Dev.modRun _ _ _).run _).live = true
    rw [Dev.modRun_run, if_pos rfl, hBrun]
    exact hl
  have hrun : (d.issue op i srcs n body).run i.eng = (f r0).next := by
    rw [e1, Dev.modRun_run, if_pos rfl, Dev.modRun_run, if_pos rfl, hBrun]
  have hnext : ∀ r : EngRun, r.next = { r with pc := r.next.pc, lc := r.next.lc, loop := r.next.loop } := by
    intro r; unfold EngRun.next; repeat' split
    all_goals rfl
  refine ⟨⟨?_, ?_, ?_, ?_, ?_, ?_, ?_, ?_, ?_⟩, hrun⟩
  · rw [e1]
    show { B with engs := _ } = { base with engs := _ }
    rw [hdev]; rfl
  · intro j hj
    rw [e1, Dev.modRun_eng, if_neg hj, Dev.modRun_eng, if_neg hj, hothers j hj]
  · rw [e1]
    conv_lhs => rw [Dev.modRun_eng, if_pos rfl, Dev.modRun_eng, if_pos rfl, hunit]
    rw [Dev.modRun_run, if_pos rfl, Dev.modRun_run, if_pos rfl, hBrun]
  · intro j hj; rw [hrun, EngRun.next_W, hw _ _ hj]; rfl
  · intro j h16 hj; rw [hrun, EngRun.next_flag, hfl _ _ h16 hj]; rfl
  · intro j h2 hj; rw [hrun, EngRun.next_Z, hz _ _ h2 hj]; rfl
  · intro j hj; rw [hrun, EngRun.next_P, hp _ _ hj]; rfl
  · rw [hrun, hnext, hf r0]
  · rw [hrun]
    conv_lhs => rw [hnext, hf r0]
    conv_rhs => rw [hnext (f r0), hf r0]

/-- An instruction that works on the registers and flags of its run retires (R204 to R206). -/
theorem Dev.alu_step {d : Dev} {op : Nat} {i : Issue} {srcs : List Nat} (h : Ready d i srcs) (n : Nat) (f : EngRun → EngRun)
    (ws fs zs ps : List Nat)
    (hword : d.pword i.eng = i.word op) (ht : (d.run i.eng).issueAt srcs + n ≤ d.deadlineIn i.eng)
    (hlegal : fieldsOk op i = true)
    (hc : ∀ r, (f r).core = r.core)
    (hw : ∀ r j, j ∉ ws → (f r).W j = r.W j)
    (hfl : ∀ r j, j < 16 → j ∉ fs → (f r).flag j = r.flag j)
    (hz : ∀ r j, j < 2 → j ∉ zs → (f r).Z j = r.Z j)
    (hp : ∀ r j, j ∉ ps → (f r).P j = r.P j) :
    RunStep d (d.alu op i srcs n f) i.eng ws fs zs ps ((d.run i.eng).issueAt srcs + n) ∧
    (d.alu op i srcs n f).run i.eng = (f { d.run i.eng with cyc := (d.run i.eng).issueAt srcs + n }).next := by
  exact Dev.issue_step h n _ f ws fs zs ps hword ht hlegal rfl rfl (fun j hj => by rw [Dev.modRun_eng, if_neg hj])
    (by rw [Dev.modRun_eng, if_pos rfl]; rfl) h.live hc hw hfl hz hp

/-- The end test of R210, as retirement makes it. -/
theorem EngRun.next_seq (r : EngRun) : SeqStep r r.next r.lc := by
  unfold EngRun.next
  refine ⟨fun h => ?_, fun l hl h hn => ?_, fun h hn => ?_⟩
  all_goals unfold EngRun.atEnd at h
  · cases hl : r.loop with
    | none => simp
    | some l =>
      rw [hl] at h
      simp only [Bool.and_eq_false_iff, beq_eq_false_iff_ne] at h
      simp only []
      rw [if_neg (by rintro ⟨h1, h2⟩; cases h <;> contradiction)]
      exact ⟨rfl, rfl, rfl⟩
  · rw [hl] at h ⊢
    simp only [Bool.and_eq_true, beq_iff_eq] at h
    simp only [h, and_self, if_true, hn]
  · cases hl : r.loop with
    | none => rw [hl] at h; contradiction
    | some l =>
      rw [hl] at h
      simp only [Bool.and_eq_true, beq_iff_eq] at h
      simp only []
      rw [if_pos h, if_neg (by omega)]
      exact ⟨rfl, rfl, rfl⟩

/-- Two runs with the same control flow go on alike. -/
theorem SeqStep.of_same {a a' b : EngRun} {n : Nat} (h : SeqStep a b n) (hp : a'.pc = a.pc) (hl : a'.loop = a.loop)
    (hs : a'.stack = a.stack) : SeqStep a' b n := by
  have e : a'.atEnd = a.atEnd := by unfold EngRun.atEnd; rw [hl, hp, hs]
  exact ⟨fun x => by rw [hp, hl]; exact h.plain (e ▸ x), fun l x y z => by rw [hl]; exact h.again l (hl ▸ x) (e ▸ y) z,
    fun x y => by rw [hp]; exact h.last (e ▸ x) y⟩

/-- An instruction that works on its run's registers and flags retires with what its update gives. -/
theorem retires_alu {s : State} {c : Instr} {op : Nat} {i : Issue} {srcs ws fs zs ps : List Nat} {n : Nat}
    {res : EngRun → EngRun → Prop} (f : EngRun → EngRun) (h : Ready s.dev i srcs) (hop : opcodeOf c = op)
    (hlegal : fieldsOk op i = true)
    (hc : exec c s = .next { s with dev := (s.dev.alu op i srcs n f).settle })
    (hcore : ∀ r, (f r).core = r.core)
    (hw : ∀ r j, j ∉ ws → (f r).W j = r.W j)
    (hfl : ∀ r j, j < 16 → j ∉ fs → (f r).flag j = r.flag j)
    (hz : ∀ r j, j < 2 → j ∉ zs → (f r).Z j = r.Z j)
    (hp : ∀ r j, j ∉ ps → (f r).P j = r.P j)
    (hr : ∀ r r0 : EngRun, (∀ j, r0.W j = r.W j) → (∀ j, r0.flag j = r.flag j) → (∀ j, r0.Z j = r.Z j) →
      (∀ j, r0.P j = r.P j) → r0.lc = r.lc → r0.flags = r.flags → res r (f r0).next)
    (hlc : ∀ r, (f r).lc = r.lc := by intro r; first | rfl | simp [EngRun.satResult]) :
    Retires s c i srcs ws fs zs ps n res := by
  have hf := fun r => EngRun.eq_of_core (hcore r)
  rintro ⟨hword, ht⟩
  rw [hop] at hword
  obtain ⟨h1, h2⟩ := Dev.alu_step h n f ws fs zs ps hword ht hlegal hcore hw hfl hz hp
  refine ⟨_, hc, h1, ?_, ?_⟩
  · rw [h2]
    set r0 : EngRun := { s.dev.run i.eng with cyc := (s.dev.run i.eng).issueAt srcs + n } with hr0
    have hseq := (f r0).next_seq
    rw [hlc r0] at hseq
    exact hseq.of_same (by rw [hf]) (by rw [hf]) (by rw [hf])
  · rw [h2]; exact hr _ _ (fun _ => rfl) (fun _ => rfl) (fun _ => rfl) (fun _ => rfl) rfl rfl

/-! ### Access faults (R186) -/

/-- An access fault changes no other engine. -/
theorem Dev.accessFault_other (d : Dev) (e port kind j : Nat) (hj : j ≠ e) :
    (d.accessFault e port kind).eng j = d.eng j := by
  unfold Dev.accessFault Dev.accessFaultAt
  simp only []
  rw [Dev.modRun_eng, if_neg hj]
  split <;> rfl

/-- An access fault sets AF and marks the run. -/
theorem Dev.accessFault_eng (d : Dev) (e port kind : Nat) :
    (d.accessFault e port kind).eng e =
      { d.eng e with run := { (d.eng e).run.setFlag fAf true with faulted := true } } := by
  unfold Dev.accessFault Dev.accessFaultAt
  simp only []
  rw [Dev.modRun_eng, if_pos rfl]
  split <;> rfl

/-- What an access fault does beside the engine does not depend on what the run holds beyond its program counter and its
mark. -/
theorem Dev.accessFault_modRun (d : Dev) (e port kind : Nat) (g : EngRun → EngRun)
    (hp : (g (d.eng e).run).pc = (d.eng e).run.pc) (hf : (g (d.eng e).run).faulted = (d.eng e).run.faulted) :
    (d.modRun e g).accessFault e port kind =
      { d.accessFault e port kind with engs := ((d.modRun e g).accessFault e port kind).engs } := by
  have he : (d.modRun e g).eng e = { d.eng e with run := g (d.eng e).run } := by rw [Dev.modRun_eng, if_pos rfl]
  unfold Dev.accessFault Dev.accessFaultAt
  simp only [he, hp, hf]
  cases (d.eng e).run.faulted <;> rfl

/-- An instruction retires that works on more than its run: `base` is the state with that done. -/
theorem retires_on {s : State} {base : Dev} {c : Instr} {op : Nat} {i : Issue} {srcs ws fs zs ps : List Nat} {n : Nat}
    {res : EngRun → EngRun → Prop} {B : Dev} (body : Dev → Dev) (f : EngRun → EngRun) (h : Ready s.dev i srcs)
    (hop : opcodeOf c = op) (hlegal : fieldsOk op i = true)
    (hx : exec c s = .next { s with dev := (s.dev.issue op i srcs n body).settle })
    (hb : body (s.dev.modRun i.eng fun r => { r with cyc := r.issueAt srcs + n }) = B.modRun i.eng f)
    (hdev : B = { base with engs := B.engs })
    (hothers : ∀ j, j ≠ i.eng.val → B.eng j = base.eng j)
    (hunit : B.eng i.eng = { base.eng i.eng with run := { base.run i.eng with cyc := (s.dev.run i.eng).issueAt srcs + n } })
    (hlive : (base.run i.eng).live = true)
    (hpc : (base.run i.eng).pc = (s.dev.run i.eng).pc) (hloop : (base.run i.eng).loop = (s.dev.run i.eng).loop)
    (hstack : (base.run i.eng).stack = (s.dev.run i.eng).stack) (hlc0 : (base.run i.eng).lc = (s.dev.run i.eng).lc)
    (hc : ∀ r, (f r).core = r.core) (hlc : ∀ r, (f r).lc = r.lc)
    (hw : ∀ r j, j ∉ ws → (f r).W j = r.W j)
    (hfl : ∀ r j, j < 16 → j ∉ fs → (f r).flag j = r.flag j)
    (hz : ∀ r j, j < 2 → j ∉ zs → (f r).Z j = r.Z j)
    (hp : ∀ r j, j ∉ ps → (f r).P j = r.P j)
    (hr : res (s.dev.run i.eng) (f { base.run i.eng with cyc := (s.dev.run i.eng).issueAt srcs + n }).next) :
    RetiresOn s base c i srcs ws fs zs ps n res := by
  rintro ⟨hword, ht⟩
  rw [hop] at hword
  obtain ⟨h1, h2⟩ := Dev.issue_step h n body f ws fs zs ps hword ht hlegal hb hdev hothers hunit hlive hc hw hfl hz hp
  refine ⟨_, hx, h1, ?_, ?_⟩
  · rw [h2]
    set r0 : EngRun := { base.run i.eng with cyc := (s.dev.run i.eng).issueAt srcs + n } with hr0
    have hf := fun r => EngRun.eq_of_core (hc r)
    have hseq := (f r0).next_seq
    rw [hlc r0] at hseq
    have e0 : r0.lc = (s.dev.run i.eng).lc := hlc0
    rw [e0] at hseq
    exact hseq.of_same (by rw [hf]; exact hpc.symm) (by rw [hf]; exact hloop.symm) (by rw [hf]; exact hstack.symm)
  · rw [h2]; exact hr

/-- An instruction retires with an access fault. -/
theorem retires_fault {s : State} {c : Instr} {op : Nat} {i : Issue} {srcs ws ps : List Nat} {n port kind: Nat}
    {res : EngRun → EngRun → Prop} (body : Dev → Dev) (f : EngRun → EngRun) (h : Ready s.dev i srcs)
    (hop : opcodeOf c = op) (hlegal : fieldsOk op i = true)
    (hx : exec c s = .next { s with dev := (s.dev.issue op i srcs n body).settle })
    (hb : body (s.dev.modRun i.eng fun r => { r with cyc := r.issueAt srcs + n }) = ((s.dev.modRun i.eng fun r => { r with cyc := r.issueAt srcs + n }).accessFault i.eng port kind).modRun i.eng f)
    (hc : ∀ r, (f r).core = r.core) (hlc : ∀ r, (f r).lc = r.lc)
    (hw : ∀ r j, j ∉ ws → (f r).W j = r.W j)
    (hfl : ∀ r j, (f r).flag j = r.flag j)
    (hz : ∀ r j, (f r).Z j = r.Z j)
    (hp : ∀ r j, j ∉ ps → (f r).P j = r.P j)
    (hr : ∀ x : EngRun, (∀ n, x.P n = (s.dev.run i.eng).P n) → res (s.dev.run i.eng) (f x).next) :
    RetiresOn s (s.dev.accessFault i.eng port kind) c i srcs ws [] [] ps n res := by
  have hbase := s.dev.accessFault_eng i.eng port kind
  have hrun : (s.dev.accessFault i.eng port kind).run i.eng = { (s.dev.run i.eng).setFlag fAf true with faulted := true } := by
    unfold Dev.run; rw [hbase]
  refine retires_on (zs := []) body f h hop hlegal hx hb ?_ ?_ ?_ ?_ ?_ ?_ ?_ ?_ hc hlc hw (fun r j _ _ => hfl r j) (fun r j _ _ => hz r j) hp ?_
  · rw [Dev.accessFault_modRun _ _ _ _ _ rfl rfl]
  · intro j hj; rw [Dev.accessFault_other _ _ _ _ _ hj, Dev.accessFault_other _ _ _ _ _ hj, Dev.modRun_eng, if_neg hj]
  · rw [Dev.accessFault_eng, hbase, Dev.modRun_eng, if_pos rfl, hrun]; rfl
  all_goals try (rw [hrun]; first | exact h.live | rfl)
  rw [hrun]; exact hr _ (fun _ => rfl)

/-! ### Legal fields -/

theorem Issue.xLow_zero {i : Issue} {n : Nat} (h : i.x = 0) : i.xLow n = true := by simp [Issue.xLow, Issue.xn, h]
theorem Issue.noA_zero {i : Issue} (h : i.a = 0) : i.noA = true := by simp [Issue.noA, Issue.an, h]
theorem Issue.noB_zero {i : Issue} (h : i.b = 0) : i.noB = true := by simp [Issue.noB, Issue.bn, h]
theorem Issue.noD_zero {i : Issue} (h : i.d = 0) : i.noD = true := by simp [Issue.noD, Issue.dn, h]

/-- Where no late slot action waits and no takeover run has its checkpoint due, nothing waits for an engine (R67, R283). -/
theorem Dev.serveLate_none {d : Dev} (h : d.gey.late = 0) (hk : ∀ e, 8 ≤ e → e < 10 → (d.eng e).ckptDue = false) :
    d.serveLate = d := by
  have ht : ∀ e, 8 ≤ e → e < 10 → d.takeoverCkpt e = d := fun e h1 h2 => by
    unfold Dev.takeoverCkpt; simp [hk e h1 h2]
  unfold Dev.serveLate
  simp only [h, if_true]
  rw [ht 8 (by decide) (by decide), ht 9 (by decide) (by decide)]

/-- Where no mismatch awaits the warden, a fault of a reserve drops none (R278). -/
theorem Dev.shadowFault_none {d : Dev} (h : ∀ t ∈ d.patrol.trig, t.res = none) (e : Nat) : d.shadowFault e = d := by
  unfold Dev.shadowFault
  have : (d.patrol.trig.any fun t => t.res == some e) = false := by
    rw [List.any_eq_false]; intro t ht; simp [h t ht]
  simp [this]

/-- Where no comparison is open and no mismatch awaits the warden, either, nothing follows an instruction (R67, R277, R278). -/
theorem Dev.settle_none {d : Dev} (h : d.gey.late = 0) (hk : ∀ e, 8 ≤ e → e < 10 → (d.eng e).ckptDue = false)
    (hc : d.patrol.open_ = []) (ht : ∀ t ∈ d.patrol.trig, t.res = none) : d.settle = d := by
  unfold Dev.settle Dev.compareRuns
  rw [if_pos hc, Dev.shadowFault_none ht, Dev.shadowFault_none ht, Dev.serveLate_none h hk]

end Sys2Proof.Machine
end

