-- ==== Sys2Proof/Laws/Runs.lean ====
section
/-! SUPPORT. What the ends of a run change. -/

namespace Sys2Proof.Machine

/-- A field depends on the registers alone. -/
theorem Dev.get_congr {a b : Dev} (h : a.regs = b.regs) (f : Fld) (i : Nat) : a.get f i = b.get f i := by
  unfold Dev.get Dev.reg; rw [h]

/-- A register depends on the registers alone. -/
theorem Dev.reg_congr {a b : Dev} (h : a.regs = b.regs) (x : Nat) : a.reg x = b.reg x := by unfold Dev.reg; rw [h]

/-- A run that is over: its requests are withdrawn, it is not live, a takeover run without a duty has no interruption time,
and ENG_STAT shows its flag word and the engine at rest; beside ENG_STAT the count of full queues alone can change. -/
theorem Dev.closeRun_eq (d : Dev) (e : Nat) (how : RunEnd) : ∃ b : Dev, b = { d with con := b.con, regs := b.regs } ∧
    (∀ a, a ≠ F.CON_CNT.at_ 0 → b.reg a = d.reg a) ∧
    (Memory.wf d.con.mem = true → Memory.wf b.con.mem = true) ∧
    ∀ c, c = (let x := b.modRun e fun r =>
        { r with live := false, ended := how, far := [], served := [], stalled := false, full := none }
      if (d.eng e).run.kind = .takeover then x.modPat fun p => { p with fresh := p.fresh.filter fun y => y.1 != e } else x) →
    d.closeRun e how = (((c.put F.ENG_STAT_FLAGS e (d.eng e).run.flags.toNat).put F.ENG_STAT_STATE e (c.restState e)).putB
      F.ENG_STAT_IMM e false) :=
  have h := d.withdraw_only e
  ⟨d.withdraw e, h.1, h.2.1, h.2.2, fun _ hc => hc ▸ rfl⟩

end Sys2Proof.Machine
end

