-- ==== Sys2Proof/Machine/Pins.lean ====
section
/-! DEFINITION. The ball grid (R437 to R439): which signal lies on which ball. Nothing here changes with a command. -/

namespace Sys2Proof.Machine

/-- What a ball carries. -/
inductive Signal where
  /-- CHnP or CHnN. -/
  | channel (n : Nat) (positive : Bool)
  | refIn | refGnd | agnd | dgnd | pgnd | vcore | vdda | vio | vret | vdrv
  /-- BSNSm. -/
  | bsns (m : Nat)
  /-- A digital signal, by its row in column 13. -/
  | digital (row : Nat)
  /-- A ball of leg `n`: 0 SL, 1 GL, 2 SH, 3 BST, 4 DSH, 5 GH. -/
  | leg (n : Nat) (role : Nat)
  /-- A ball of brake leg `m`: 0 SB, 1 GB, 2 DB. -/
  | brake (m : Nat) (role : Nat)
  deriving DecidableEq, Repr

/-- The letters of rows 1 to 34. -/
def rowNames : List String :=
  ["A", "B", "C", "D", "E", "F", "G", "H", "J", "K", "L", "M", "N", "P", "T", "U", "V"] ++
  ["W", "Y", "AA", "AB", "AC", "AD", "AE", "AF", "AG", "AH", "AJ", "AK", "AL", "AM", "AN", "AP", "AT"]

/-- The digital signals of column 13, row 1 first (R439). -/
def digitalNames : List String :=
  ["XIN", "XOUT", "RST_N", "BOOTMODE", "TESTEN", "TCK", "TMS", "TDI", "TDO", "TRST_N", "HCS_N", "HSCK"] ++
  ["HMOSI", "HMISO", "IRQ0", "IRQ1", "IRQ2", "IRQ3", "SYNCIN", "SYNCOUT", "BFCS_N", "BFCK", "BFD0", "BFD1"] ++
  ["BFD2", "BFD3", "CAN0TX", "CAN0RX", "CAN1TX", "CAN1RX", "CAN2TX", "CAN2RX", "CAN3TX", "CAN3RX"]

/-- The role of a leg ball in columns 27 to 34: SL, GL, GL, SH, BST, DSH, GH, GH. -/
def legRole (c : Nat) : Nat := [0, 1, 1, 2, 3, 4, 5, 5].getD (c - 27) 0

/-- The role of a brake ball among the four of its leg: SB, GB, GB, DB. -/
def brakeRole (j : Nat) : Nat := [0, 1, 1, 2].getD j 0

/-- Columns 1 to 12, the analog side. -/
def analogBall (i c : Nat) : Signal :=
  if c ≤ 6 then
    if i ≤ 32 then .channel (3 * (i - 1) + (c - 1) / 2) (c % 2 == 1)
    else if i = 33 ∧ c = 1 then .refIn
    else if i = 33 ∧ c = 2 then .refGnd
    else .agnd
  else if c ≤ 8 then .agnd
  else if c ≤ 10 then (if i ≤ 24 then .vdda else .agnd)
  else if c = 12 ∧ 29 ≤ i then .dgnd
  else .agnd

/-- Columns 24 to 34, the power side. -/
def powerBall (i c : Nat) : Signal :=
  if c = 24 then .pgnd
  else if c ≤ 26 then
    if i ≤ 24 then .vdrv else if i ≤ 32 then .pgnd else .bsns (2 * (i - 33) + (c - 25))
  else if i = 33 ∨ i = 34 then .brake (2 * (i - 33) + (c - 27) / 4) (brakeRole ((c - 27) % 4))
  else if i % 4 = 0 then .pgnd
  else .leg (3 * (i / 4) + (i % 4 - 1)) (legRole c)

/-- The signal on the ball of row `i`, column `c` (R438). -/
def ballAt (i c : Nat) : Option Signal :=
  if i = 0 ∨ 34 < i ∨ c = 0 ∨ 34 < c then none
  else some <|
    if c ≤ 12 then analogBall i c
    else if c = 13 then .digital i
    else if c ≤ 21 then (if i ≤ 24 ∧ (i + c) % 2 = 0 then .vcore else .dgnd)
    else if c = 22 then (if i ≤ 24 then .vio else if i ≤ 26 then .vret else .dgnd)
    else if c = 23 then .dgnd
    else powerBall i c

/-- The name of a ball (R437). -/
def ballName (i c : Nat) : String := rowNames.getD (i - 1) "" ++ toString c

end Sys2Proof.Machine
end

