-- ==== Sys2Proof/Tests/Slice0.lean ====
section
/-! SUPPORT. Tests: each check of WellFormed refuses an ill-formed command; worked values of the spec's text; and for every
statement of Certificates/Slice0/Obligations.lean a state and operands that meet its hypotheses. -/

namespace Sys2Proof.Tests

set_option Elab.async false

open Sys2Proof.Machine

/-! ### States to start from -/

/-- A sealed device between ticks: both dies out of reset, axis 0 a field-oriented axis on pair 0 and engine 0, axis 1 one
with an encoder on unit 0, one program of 100 instructions. -/
def upDev : Dev where
  clk := { ticked := true }
  sys := { inReset := false, vcoreLow := false, vddaLow := false, vioLow := false, pllBad := false, portUp := true, calInit := false, sealed := true }
  img := { cur := {
    topo := [(0, { en := true, kind := 0, engine := 0, prog := 0, pair := 0, fbk := 0xFF, brake := 0, drive := 0 }),
      (1, { en := true, kind := 0, engine := 1, prog := 0, pair := 1, fbk := 0, brake := 0, drive := 2 })]
    progs := [(0, { wcet := 1000, codeN := 100, ckpt := 4 })]
    classes := [{ first := 0, last := 15, auth := false, key := 0 }, { first := 16, last := 31, auth := true, key := 0 }]
    pairs := 0xFF } }
  vent := { inReset := false, cfgOk := true, vrst := false, vlow := false }

def up : State := { State.reset with dev := upDev }

/-- `up` with its device changed. -/
def with_ (f : Dev → Dev) : State := { up with dev := f upDev }

/-- `up` with a run on engine 0. -/
def running : State := with_ fun d => d.modRun 0 fun r => { r with live := true }

/-- `up` with the Vent die changed. -/
def vent (f : Vent → Vent) : State := with_ fun d => d.modVent f

/-- `up` in reset, its conditions cleared. -/
def held : State := with_ fun d => { d with sys := { d.sys with inReset := true, sealed := false } }

/-- An instruction of engine 0. -/
def iss (d a b : Fin 16) (x : BitVec 22) : Issue := { eng := 0, d := d, a := a, b := b, x := x }

/-- Engine 0 is ready for an instruction of any fields and sources. -/
theorem ready (d a b : Fin 16) (x : BitVec 22) (l : List Nat) : Ready running.dev (iss d a b x) l where
  awake := rfl
  live := rfl
  waits := by
    have h : ∀ n, (running.dev.run (iss d a b x).eng).waits n = false := fun _ => rfl
    simp [h]
  inCode := show (0 : Nat) < 100 by decide
  fetch := rfl

/-- The word of an instruction stands at the program counter of engine 0. -/
def loaded (c : Instr) (i : Issue) (s : State) : State :=
  { s with dev := s.dev.modEng 0 fun u => { u with pmem := uset u.pmem u.run.pc (i.word (opcodeOf c)) } }

/-- With its word at the program counter an instruction of any fields is fetched, ahead of the deadline at 1,064 cycles. -/
theorem fetched (c : Instr) (d a b : Fin 16) (x : BitVec 22) (l : List Nat) :
    Ready (loaded c (iss d a b x) running).dev (iss d a b x) l ∧ Fetched (loaded c (iss d a b x) running).dev c (iss d a b x) 1064 := by
  have e : (loaded c (iss d a b x) running).dev.eng 0 =
      { running.dev.eng 0 with pmem := uset [] 0 ((iss d a b x).word (opcodeOf c)) } := uget_uset_same _ _ _
  refine ⟨⟨rfl, ?_, ?_, ?_, rfl⟩, ?_, ?_⟩
  · show ((loaded c (iss d a b x) running).dev.eng 0).run.live = true
    rw [e]; rfl
  · have h : ∀ n, ((loaded c (iss d a b x) running).dev.run (iss d a b x).eng).waits n = false := by
      intro n
      show ((loaded c (iss d a b x) running).dev.eng 0).run.waits n = false
      rw [e]; rfl
    simp [h]
  · show ((loaded c (iss d a b x) running).dev.eng 0).run.pc < ((loaded c (iss d a b x) running).dev.runProg 0).codeN
    unfold Dev.runProg
    rw [e]
    exact (by decide : (0 : Nat) < 100)
  · show (loaded c (iss d a b x) running).dev.pword 0 = _
    unfold Dev.pword
    rw [e]
    exact uget_uset_same _ _ _
  · show 1064 ≤ ((loaded c (iss d a b x) running).dev.runProg 0).wcet + 64
    unfold Dev.runProg
    rw [e]
    exact (by decide : (1064 : Nat) ≤ 1000 + 64)

/-! ### WellFormed: one ill-formed command for each check -/

/-- A remote FD frame, and a classic frame with too few data bytes for its DLC. -/
def badFrame (fdf rtr : Bool) (dlc : BitVec 4) : CanFrame :=
  { id := 5, xtd := false, fdf := fdf, brs := false, esi := false, rtr := rtr, dlc := dlc, data := [], stamp := 0 }
theorem test_illformed_frame : Instr.wf (.canFrameRx 0 (badFrame true true 0)) = false ∧ Instr.wf (.canFrameRx 0 (badFrame false false 1)) = false ∧
    Instr.wf (.canFrameRx 0 { badFrame false false 0 with id := 2048 }) = false ∧ Instr.wf (.canFrameRx 0 { badFrame false false 0 with esi := true }) = false ∧
    exec (.canFrameRx 0 (badFrame false false 1)) up = .fault .illFormed := ⟨rfl, rfl, rfl, rfl, rfl⟩

/-! ### Worked values of the spec -/

/-- R34: the CRC-32 of the ASCII string "123456789". -/
theorem test_crc32 : crc32 ((List.range 9).map fun i => BitVec.ofNat 8 (0x31 + i)) = 0xCBF43926 := by decide +kernel

/-- R457: IDCODE of revision 1 (word 0x000 of the shipped array carries REV). -/
theorem test_idcode : (1 * 2 ^ 28 + 0x00840A8F : Nat) = 0x10840A8F := by decide

/-- Chapter 4, worked example: D = 0.3 in a center-aligned carrier of 160,000 fine steps, and D = 0.995 shortened. -/
theorem test_leg_example : carrierN 0x26666666 160000 = 48000 ∧ minPulse 48000 160000 320 640 = 48000 ∧
    carrierEdges false 48000 160000 80000 = (56000, 104000) ∧
    minPulse (carrierN 0x7F5C28F6 160000) 160000 320 640 = 160000 := by decide +kernel

/-- R223: the vector of length 0, and the 32 iterations worked by hand for (y = 2^31, x = 0): 2 units of 2^−32 turn above a quarter turn. -/
theorem test_atan2 : atan2 0 0 = (0, (0, false)) ∧ (atan2 (2 ^ 31) 0).1 = 0x0040000002#40 := by decide +kernel

/-- R222: the angle 0 has the sine 0 to within 64 LSB, and quadrant 1 takes its cosine from −yr. -/
theorem test_trig : (trig 0).1.1.natAbs ≤ 64 ∧ ((trig 0).2.1 - 2 ^ 31).natAbs ≤ 64 ∧ ((trig 0x40000000#40).1.1 - 2 ^ 31).natAbs ≤ 64 := by
  decide +kernel

/-- Chapter 19, worked example: 147.375 °C gives s16 = 41,369; 156.0 °C is held at SMIN. -/
def hotDev (temp : Nat) : Dev := (upDev.put F.THM_TEMP_TEMP 0 temp).putB F.THM_STAT_VALID 0 true
theorem test_throttle_example : ((hotDev 1179).put F.THM_LIM_TTHR 0 140).throttle = 41369 ∧ (hotDev 1248).throttle = 16384 := by decide +kernel
theorem test_thm_lim_reset : upDev.reg F.THM_LIM.addr = 0x1084A08C82#40 := by decide +kernel

/-- R216: 2^39 − 1 plus 1 wraps to −2^39 with V and without C. -/
def adding : State := with_ fun d => d.modRun 0 fun r => { (r.setW 1 (BitVec.ofInt 40 (2 ^ 39 - 1))).setW 2 1 with live := true }
def after (c : Instr) (s : State) : Dev := match exec c s with
  | .next t => t.dev
  | _ => {}
/-- The device after an instruction whose word stands at the program counter of engine 0. -/
def issued (c : Issue → Instr) (i : Issue) (s : State) : Dev := after (c i) (loaded (c i) i s)
theorem test_add_wraps : ((issued .add (iss 3 1 2 0) adding).run 0).W 3 = 0x8000000000#40 ∧
    ((issued .add (iss 3 1 2 0) adding).run 0).flag fV = true ∧ ((issued .add (iss 3 1 2 0) adding).run 0).flag fC = false := by decide +kernel
/-- R217: the same sum in P32 clamps to the largest P32 value. -/
theorem test_adds_clamps : ((issued .adds (iss 3 1 2 0) adding).run 0).W 3 = BitVec.ofInt 40 p32Max ∧
    ((issued .adds (iss 3 1 2 0) adding).run 0).flag fSat = true := by decide +kernel
/-- R212: LDI 0, then LDIH 0x200 gives 1.0. -/
theorem test_ldih_one : ((issued .ldih (iss 4 0 0 0x200) running).run 0).W 4 = 0x0080000000#40 := by decide +kernel
/-- R221: one step with r = q = 1 and b = 3: r becomes 2, below b, and the quotient doubles. -/
theorem test_divstep : ((issued .divstep (iss 2 0 1 0) (with_ fun d => d.modRun 0 fun r => { ((r.setW 2 1).setW 3 1).setW 1 3 with live := true })).run 0).W 3 = 2 := by
  decide +kernel
/-- Chapter 7, worked example: RDAVG of 278 samples with the sum 2,915,108 and the scale 40,960 × 256. -/
def averaging : State := with_ fun d =>
  (((d.putI F.ACC_HSUM_SUM 0 2915108).put F.ACC_HCNT_CNT 0 278).putI F.ACC_CFG_SCALE 0 0xA00000).modRun 0 fun r => { r with live := true }
theorem test_rdavg_example : ((issued .rdavg (iss 5 0 0 0) averaging).run 0).W 5 = 0x001999C000#40 := by decide +kernel
/-- R180: an illegal field ends the run with cause OPCODE. -/
theorem test_opcode : ((issued .add (iss 0 0 0 1) running).run 0).live = false ∧
    (issued .add (iss 0 0 0 1) running).get F.ENG_OVR_CAUSE 0 = 3 := by decide +kernel

/-- R364: the CRC of a frame covers its first seven bytes; a frame of a read is answered by the next one. -/
theorem test_resp : (respFrame 0x220 0 0xC7#40).extractLsb' 56 8 = 0x20#8 ∧ (respFrame 0x220 0 0xC7#40).extractLsb' 8 40 = 0xC7#40 := by
  decide +kernel
/-- R374, R10: the host clears an event; a write of a read-only register is discarded. -/
def raised : State := with_ fun d => (d.raise 71).raise 87
theorem test_event_clear : (after (.registerWrite .host 0x202 0x80#40) raised).reg 0x202 = 0x800000#40 := by decide +kernel
theorem test_readonly : (after (.registerWrite .host 0x2203 5#40) up).reg 0x2203 = upDev.reg 0x2203 := by decide +kernel

/-! ### Witnesses: Magma engines -/

theorem witness_IntegerInstructionsWrap : Ready running.dev (iss 1 2 3 0) [2, 3] ∧ (iss 1 2 3 0).x = 0 ∧
    Ready running.dev (iss 15 15 0 0x3FFFFF) [15] ∧ (iss 15 15 0 0x3FFFFF).b = 0 :=
  ⟨ready .., rfl, ready .., rfl⟩
theorem witness_CompareAndSaturate : Ready running.dev (iss 0 15 0 0) [15, 0] ∧ (iss 0 15 0 0).x = 0 ∧ (iss 0 15 0 0).b = 0 ∧ (iss 0 15 0 0).d = 0 :=
  ⟨ready .., rfl, rfl, rfl⟩
theorem witness_MultiplyAccumulateDivide : Ready running.dev (iss 1 1 0 1) [1, 0] ∧ (iss 1 1 0 1).d.val < 2 ∧ (iss 1 1 0 1).x = (if true then 1 else 0) ∧
    Ready running.dev (iss 3 1 0 15) [] ∧ (iss 3 1 0 15).x = BitVec.ofNat 22 15 ∧ (iss 3 1 0 15).a.val < 2 ∧
    Ready running.dev (iss 14 0 15 0) [14, 15, 15] ∧ (iss 14 0 15 0).d.val % 2 = 0 :=
  ⟨ready .., by decide, rfl, ready .., by decide, by decide, ready .., by decide⟩
theorem witness_LogicAndShifts : Ready running.dev (iss 1 2 0 0x200005) [2] ∧ (iss 1 2 0 0x200005).x.getLsbD 21 = true ∧
    (iss 1 2 0 0x20003F).x.extractLsb' 6 15 = 0 ∧ ((iss 1 2 0 0x20003F).x.extractLsb' 0 6).toNat = 63 ∧
    (running.dev.run 0).far = [] ∧ (iss 1 2 1 0x200000).b ≠ 0 ∧ (iss 1 2 0 0x200040).x.extractLsb' 6 15 ≠ 0 :=
  ⟨ready .., by decide, by decide, by decide, rfl, by decide, by decide⟩
theorem witness_MovesAndSpecialRegisters : Ready running.dev (iss 3 0 0 9) [] ∧ (iss 3 0 0 9).x = BitVec.ofNat 22 9 ∧
    (iss 3 0 0 0xFFFF).x = (0xFFFF#16).zeroExtend 22 ∧ (iss 3 0 0 0x3FFFF).x = (0x3FFFF#18).zeroExtend 22 ∧
    ¬((iss 3 0 0 0x40000).x.toNat < 2 ^ 18) ∧ (iss 3 0 0 15).x = BitVec.ofNat 22 15 ∧ (running.dev.run 0).far = [] :=
  ⟨ready .., by decide, by decide, by decide, by decide, by decide, rfl⟩
theorem witness_CordicInstructions : Ready running.dev (iss 14 1 2 0) [1, 2] ∧ (iss 14 1 2 0).d.val % 2 = 0 ∧ (adding.dev.run 0).W 2 ≠ 0 ∧
    (running.dev.run 0).W 2 = 0 := ⟨ready .., by decide, by decide, by decide⟩
theorem witness_FrameTransformsAndSvm : Ready running.dev (iss 12 14 14 1) [14, 14, 15] ∧ (iss 12 14 14 1).b.val < 15 ∧ (iss 12 14 14 1).d.val % 4 = 0 ∧
    (iss 12 14 0 0).a.val % 2 = 0 := ⟨ready .., by decide, by decide, by decide⟩
theorem witness_PiStep : Ready running.dev (iss 1 2 3 0xFFC) [2] ∧ (iss 1 2 3 0xFFC).b.val < 4 ∧
    ((running.dev.run 0).P 3 + (iss 1 2 3 0xFFC).x.toNat) % 65536 + 3 ≤ 0xFFF ∧ (iss 1 2 3 0xFFC).data = .ok ∧
    0xFFF < ((running.dev.run 0).P 3 + (iss 1 2 3 0xFFD).x.toNat) % 65536 + 3 := ⟨ready .., by decide, by decide, rfl, by decide⟩
theorem witness_ControlFlow : Ready running.dev (iss 0 0 0 0xFFFF) [] ∧ (iss 0 0 0 0xFFFF).x.toNat < 2 ^ 16 ∧ (running.dev.run 0).stack = [] ∧
    (running.dev.run 0).pc < (iss 0 0 0 0xFFFF).x.toNat ∧ (running.dev.run 0).loop = none ∧ (iss 0 0 0 0).x.toNat ≤ (running.dev.run 0).pc ∧
    (iss 1 0 0 5).d.val = 1 ∧ (running.dev.run 0).flag fZ = false := ⟨ready .., by decide, rfl, by decide, rfl, by decide, rfl, by decide⟩
/-- A full return stack, and one with an address. -/
def stacked (n : Nat) : State := with_ fun d => d.modRun 0 fun r => { r with live := true, stack := List.replicate n 7 }
theorem witness_stack : 4 ≤ ((stacked 4).dev.run 0).stack.length ∧ ((stacked 1).dev.run 0).stack = 7 :: [] ∧ ((stacked 3).dev.run 0).stack.length < 4 := by
  decide
theorem witness_HaltCompletesTheRun : Ready running.dev (iss 0 0 0 0) [16] ∧ (running.dev.run 0).far = [] ∧ (running.dev.run 0).kind ≠ .shadow ∧
    ((with_ fun d => d.modRun 0 fun r => { r with live := true, kind := .shadow }).dev.run 0).kind = .shadow := ⟨ready .., rfl, by decide, rfl⟩
theorem witness_LocalDataAndAccessFaults : Ready running.dev (iss 1 0 3 0xFFF) [] ∧ (iss 1 0 3 0x20FFFF).x.extractLsb' 16 5 = 0 ∧
    (((running.dev.run 0).P 3 : Int) + ((iss 1 0 3 0xFFF).x.extractLsb' 0 16).toInt) % 65536 = 0xFFF ∧
    (((running.dev.run 0).P 3 : Int) + ((iss 1 0 3 0xFFFF).x.extractLsb' 0 16).toInt) % 65536 = 0xFFFF ∧ (running.dev.run 0).faulted = false :=
  ⟨ready .., by decide, by decide, by decide, rfl⟩
theorem witness_EnginePorts : Ready running.dev (iss 0 1 0 0x1CC) [1] ∧ (iss 0 1 0 0x1E4).x.toNat = 0x1E4 ∧ (iss 0 1 0 1023).x.toNat < 1024 ∧
    ((running.dev.run 0).W 1).toNat < 8 ∧ ¬((adding.dev.run 0).W 1).toNat < 8 ∧ (upDev.topo 1).drive = 2 ∧ (upDev.topo 0).drive ≠ 2 :=
  ⟨ready .., by decide, by decide, by decide, by decide, by decide, by decide⟩
theorem witness_DutyAndReference : Ready running.dev (iss 0 1 0 0x102) [1] ∧ (iss 0 1 0 0x102).x.toNat = 0x100 + 2 ∧
    running.dev.flag F.AX_CFG_IREQ 0 = false ∧ (running.dev.run 0).irefq = false ∧ (upDev.putB F.AX_CFG_IREQ 0 true).flag F.AX_CFG_IREQ 0 = true ∧
    (iss 0 1 0 0x108).x.toNat = 0x108 ∧ (∃ q : Int, 0 ≤ q ∧ q * q ≤ 0 ∧ 0 < (q + 1) * (q + 1)) :=
  ⟨ready .., by decide, by decide, rfl, by decide, by decide, ⟨0, by decide, by decide, by decide⟩⟩
/-- Bank 2 open to engine 0, and a store parked in its queue. -/
def farDev : Dev := (running.dev.put F.CON_MAP_BANKS 0 4).modRun 0 fun r => { r with cpage := 1 }
def farReq (k : ReqKind) : Req := { req := 0, since := 0, addr := 65536, kind := k }
def parkedDev : Dev := farDev.modQueue 2 fun _ => [farReq (.load 3)]
/-- Eight other requests wait there behind a grant that runs to cycle 100; a store parked alone. -/
def fullDev : Dev := (farDev.modQueue 2 fun _ => (List.range 8).map fun j => { farReq (.load 3) with req := j + 1 }).setBusy 2 1 100
def storedDev : Dev := farDev.modQueue 2 fun _ => [farReq (.store 7)]
theorem witness_FarAccesses : farDev.engineMay 0 2 = true ∧ running.dev.engineMay 0 2 = false ∧ (farDev.arbTo 0).conFull 2 0 = false ∧
    (farDev.arbTo 0).conWins 2 0 (farReq (.load 0)) = true ∧ (parkedDev.arbTo 0).conWins 2 0 (farReq (.load 0)) = false ∧
    (parkedDev.arbTo 0).conFull 2 0 = false ∧ (fullDev.arbTo 0).conFull 2 0 = true ∧ (fullDev.arbTo 0).conWins 2 0 (farReq (.load 0)) = false ∧
    (farDev.run 0).far.length < 4 ∧ (farDev.run 0).stalled = false ∧ (farDev.run 0).full = none ∧
    (farDev.run 0).farFrom ((farDev.run 0).issueAt []) = some 0 ∧ (farDev.run 0).farFrom ((farDev.run 0).issueAt [15]) = some 0 ∧
    farDev.eccOf 65536 .ok = .ok ∧ 0 ≤ farDev.deadlineIn 0 ∧ (∀ y ∈ farDev.queue 2, y.at_ ≠ some 0) ∧
    (iss 3 0 0 0x200000).x.extractLsb' 0 21 = 0 := by decide +kernel
theorem witness_FarServed : parkedDev.nextArb 2 = some 0 ∧ parkedDev.conPick 2 = some (farReq (.load 3)) ∧ parkedDev.waits = 1 ∧
    parkedDev.conHeld 2 = false ∧ (∀ x ∈ parkedDev.queue 2, x.at_ = none) ∧ farDev.nextArb 2 = none ∧
    (parkedDev.granted 2 Req.isFar).2 = some { farReq (.load 3) with at_ := some 1 } ∧
    (storedDev.granted 2 Req.isFar).2 = some { farReq (.store 7) with at_ := some 1 } := by decide +kernel
theorem witness_RunEndings : (iss 15 15 15 0x3FFFFF).x = BitVec.allOnes 22 ∧ (running.dev.run 0).pc < (running.dev.runProg 0).codeN ∧
    (running.dev.run 0).live = true ∧ running.dev.servedBy 0 = some 0 ∧ running.dev.patrol.trig = [] ∧ running.dev.get F.ENG_OVR_CONSEC 0 < 2 ∧
    (running.dev.run 0).far = [] ∧ (running.dev.run 0).issueAt [16] < running.dev.deadlineIn 0 ∧
    (running.dev.run 0).stalled = false ∧ (running.dev.run 0).hang = false ∧
    (loaded (.add (iss 15 15 15 0x3FFFFF)) (iss 15 15 15 0x3FFFFF) running).dev.pword 0 = (iss 15 15 15 0x3FFFFF).word (opcodeOf (.add (iss 15 15 15 0x3FFFFF))) := by
  decide +kernel
/-- A run at the end of its program. -/
def endDev : Dev := running.dev.modRun 0 fun r => { r with pc := 100, savedLegs := [(23, 5, true)], savedRegs := [(F.AX_REP.at_ 0 + 7, 9)] }
theorem witness_EngineFailures : (endDev.runProg 0).codeN ≤ (endDev.run 0).pc ∧ (endDev.run 0).live = true ∧ (running.dev.runProg 0).codeN > 0 ∧
    (0x3FFFFFFFF#40).toNat / 2 ^ 34 = 0 ∧ (running.dev.run 0).far = [] ∧ (upDev.run 0).live = false ∧ (upDev.servedBy 5).isSome = false ∧
    (endDev.run 0).savedLegs = [(23, 5, true)] ∧ (endDev.run 0).savedBrakes = [] ∧ (endDev.comm 0).ramp = none ∧
    illegalWord 0x3FFFFFFFF#40 = true ∧ (running.dev.run 0).cyc < running.dev.deadlineIn 0 ∧ (endDev.run 0).cyc < endDev.deadlineIn 0 ∧
    ((running.dev.modEng 0 fun u => { u with pmem := [(0, 0x3FFFFFFFF#40)] }).pword 0 = 0x3FFFFFFFF#40) ∧ running.dev.pword 0 = 0 ∧
    illegalWord 0#40 = true ∧ upDev.sys.sealed = true ∧ upDev.fenced 7 = false ∧ upDev.patrol.trig = [] ∧
    max (running.dev.run 0).cyc (uget (running.dev.run 0).ready 16) + 256 ≤ running.dev.deadlineIn 0 := by decide +kernel
/-- A shadow run of reserve 8 whose mismatch awaits the warden. -/
def disputed : Dev := (upDev.modRun 8 fun r => { r with live := true, kind := .shadow }).modPat fun p =>
  { p with trig := [{ eng := 0, cause := 5, at_ := 0, res := some 8 }] }
theorem witness_ReserveFails : (∃ t ∈ disputed.patrol.trig, t.res = some 8) ∧ (disputed.run 8).kind = .shadow ∧ (disputed.run 8).live = true ∧
    (disputed.run 8).far = [] ∧ (disputed.run 8).stalled = false ∧
    max (disputed.run 8).cyc (uget (disputed.run 8).ready 16) + 256 ≤ disputed.deadlineIn 8 := by decide +kernel
def verdictDev (p s : RunEnd) : Dev :=
  (((upDev.modRun 0 fun r => { r with ended := p }).modRun 8 fun r => { r with ended := s }).modPat fun x => { x with open_ := [{ res := 8, axis := 0 }] })
theorem witness_PatrolVerdict : upDev.engineOf 0 = some 0 ∧ (verdictDev .complete .complete).patrol.open_ = [{ res := 8, axis := 0 }] ∧
    verdictOf ((verdictDev .complete .complete).run 0) ((verdictDev .complete .complete).run 8) = .match_ ∧
    verdictOf ((verdictDev .none .none).run 0) ((verdictDev .none .none).run 8) = .open_ ∧
    verdictOf ((verdictDev .ecc .complete).run 0) ((verdictDev .ecc .complete).run 8) = .none_ := by decide +kernel
def unequalDev : Dev := (verdictDev .none .none).modRun 8 fun r => { r with items := [{ kind := .port, addr := 0x100, value := 1 }], hang := false }
theorem witness_mismatch : verdictOf ((unequalDev.modRun 0 fun r => { r with items := [{ kind := .port, addr := 0x100, value := 2 }] }).run 0) (unequalDev.run 8) =
    .mismatch 0 { kind := .port, addr := 0x100, value := 2 } ∧ ({ res := 8, axis := 0, found := .match_ } : Cmp).found ≠ .open_ ∧
    (unequalDev.modPat fun x => { x with open_ := [] }).patrol.open_ = [] ∧ unequalDev.patrol.trig = [] ∧ unequalDev.servedBy 0 = some 0 := by decide +kernel
def trigDev : Dev := upDev.modPat fun p => { p with trig := [{ eng := 0, cause := 2, at_ := 7 }], takeover := [(8, 0)] }
theorem witness_PatrolAndPromotion : nextTrigger trigDev.patrol.trig = some { eng := 0, cause := 2, at_ := 7 } ∧ trigDev.servedBy 0 = some 0 ∧
    trigDev.freeRes 8 = true ∧ trigDev.wdn.stopped = false ∧ upDev.patrol.trig = [] ∧
    (trigDev.modWdn fun w => { w with stopped := true }).wdn.stopped = true ∧ (trigDev.setHold 8 3).freeRes 8 = false ∧ ((trigDev.setHold 8 3).setHold 9 4).freeRes 9 = false ∧
    (trigDev.setHold 8 0).engineOf 0 = some 8 ∧ trigDev.patrol.takeover = [(8, 0)] ∧ trigDev.flag F.ENG_CKPT_VALID 8 = false ∧
    (trigDev.putB F.ENG_CKPT_VALID 8 true).flag F.ENG_CKPT_VALID 8 = true := by decide +kernel

/-! ### Witnesses: power stage, Vent die and link -/

theorem witness_BrakeLegs : up.dev.vent.brakeLive 0 = false ∧
    (vent fun v => { v with cfg := { v.cfg with brakes := [(0, some {})] } }).dev.vent.brakeLive 0 = true ∧
    (upDev.vent.brake 3).cmp = false ∧ (upDev.vent.brake 0).hold = false ∧ upDev.vent.scan = none ∧
    ((vent fun v => v.modBrake 2 fun b => { b with gate := true }).dev.vent.brake 2).gate = true := by decide +kernel
/-- A turn-on awaited on the Vent die, and one on the control die of an axis in RUN. -/
def turning : State := vent fun v => (v.modLeg 23 fun l => { l with pend := some true }).modAxis 0 fun a => { a with st := .run }
def commanding : State := with_ fun d =>
  ((d.modVent fun v => v.modAxis 0 fun a => { a with st := .run }).putB F.LEG_STAT_OUTEN 2 true).modLeg 2 fun l => { l with pend := some false }
/-- A brake leg whose comparator calls for its gate, and axis 7 SAFE under a standing SHORT_HIGH. -/
def clamping : Vent := (vent fun v => { v with cfg := { v.cfg with brakes := [(2, some {})] }, brakes := [(2, { cmp := true })] }).dev.vent
def shorting : Vent := (vent fun v => v.modAxis 7 fun a => { a with act := .shortHigh }).dev.vent
theorem witness_GateTurnOn : (turning.dev.vent.leg 23).pend = some true ∧ turning.dev.vent.scan = none ∧
    (turning.dev.vent.leg 23).ilock = false ∧ (turning.dev.vent.axis 0).st = .run ∧ (commanding.dev.vent.leg 2).pend ≠ some false ∧
    (commanding.dev.leg 2).pend = some false ∧ commanding.dev.flag F.LEG_STAT_OUTEN 2 = true ∧ commanding.dev.par 0 = false ∧
    (commanding.dev.vent.axis 0).st = .run ∧ (up.dev.leg 0).pend ≠ some true ∧ (up.dev.vent.leg 0).pend ≠ some true ∧
    (clamping.brakeWant 2 = true ∧ (clamping.brake 2).hold = false ∧ (clamping.brake 2).gate = false) ∧ up.dev.vent.brakeWant 2 = false ∧
    (∃ t0, ({ cmdOff := some 0 } : VGate).cmdOff = some t0 ∧ up.dev.clk.now < t0 + up.dev.vent.dt 23) ∧ (turning.dev.vent.leg 23).l.cmdOff = none ∧
    commanding.dev.parSec 0 = false ∧ (up.dev.vent.axis 0).st ≠ .run ∧ shorting.axis 7 = { act := .shortHigh } ∧ (shorting.leg 23).ref = .off :=
  ⟨by decide +kernel, by decide +kernel, by decide +kernel, by decide +kernel, by decide +kernel, by decide +kernel, by decide +kernel, by decide +kernel,
    by decide +kernel, by decide +kernel, by decide +kernel, by decide +kernel, by decide +kernel, ⟨0, rfl, by decide +kernel⟩, by decide +kernel,
    by decide +kernel, by decide +kernel, by decide +kernel, by decide +kernel⟩
/-- Axis 7 in RUN with the high gate of leg 23 on and watched. -/
def conducting : State := vent fun v => (v.modLeg 23 fun l => { l with h := { on := true, watch := true } }).modAxis 7 fun a => { a with st := .run }
def tripping : State := with_ fun d => d.putB F.ACC_TSTAT_OUT 31 true
theorem witness_PowerStageFaults : ((conducting.dev.vent.leg 23).gate true).sees 0 = true ∧ conducting.dev.vent.inReset = false ∧
    conducting.dev.vent.scan = none ∧ (conducting.dev.vent.leg 23).h.on = true ∧ (conducting.dev.vent.axis 7).st ≠ .safe ∧
    (2 ^ 40 - 1 : Nat) < 2 ^ 40 ∧ ((up.dev.vent.leg 0).gate false).sees 0 = false ∧ tripping.dev.tripLine 0 = true ∧
    up.dev.tripLine 0 = false ∧ { upDev.vent with cfg := { gang := 3 } }.partner 0 = some 1 ∧ (up.dev.vent.axis 0).st = .safe ∧
    (up.dev.vent.axis 0).cause ≠ .vds ∧ ((upDev.vent.modAxis 0 fun a => { a with cause := .vds }).axis 0).cause = .vds ∧
    (up.dev.vent.leg 0).h.on = false ∧ (up.dev.vent.brake 0).gate = false := by decide +kernel
/-- Axis 7 in RUN, ganged with axis 6; axis 0 SAFE under the VDS detection of its own leg 2. -/
def ganged : Vent := ({ upDev.vent with cfg := { gang := 0xC0 } }.modAxis 7 fun a => { a with st := .run }).modAxis 6 fun a => { a with st := .armed }
def shorted : Vent := (upDev.vent.modAxis 0 fun a => { a with cause := .vds }).modLeg 2 fun g => { g with l := { g.l with vds := true } }
theorem witness_gangedStop : ganged.partner 7 = some 6 ∧ (ganged.axis 6).st ≠ .safe ∧ (ganged.axis 7).st ≠ .safe ∧
    (shorted.axis 0).st = .safe ∧ (shorted.axis 0).cause = .vds ∧ (∃ m, m / 3 = 0 ∧ ((shorted.leg m).h.vds = true ∨ (shorted.leg m).l.vds = true)) :=
  ⟨by decide +kernel, by decide +kernel, by decide +kernel, by decide +kernel, by decide +kernel, 2, by decide +kernel, .inr (by decide +kernel)⟩
theorem witness_VentStopsAndReset : up.dev.vent.inReset = false ∧ State.reset.dev.vent.inReset = true ∧ State.reset.dev.tap.cells = none ∧
    State.reset.dev.vent.scan = none ∧ up.dev.link.linkdown = false ∧ (upDev.modLink fun l => { l with linkdown := true }).link.linkdown = true ∧
    uget (upDev.modLink fun l => { l with stopPkt := [(7, some .shortLow)] }).link.stopPkt 7 = some StopAct.shortLow ∧
    (uget up.dev.link.stopPkt 0 : Option StopAct) = none := by decide +kernel
/-- A heartbeat on its way that carries RUN for axis 7, which is ARMED. -/
def beating : State := with_ fun d => (d.modVent fun v => v.modAxis 7 fun a => { a with st := .armed }).modLink fun l =>
  { l with hb := some { fcnt := 1, period := 20000, states := List.replicate 8 .run, stops := List.replicate 8 none } }
theorem witness_HeartbeatOnTheVentDie : beating.dev.link.hb.isSome = true ∧ beating.dev.vent.inReset = false ∧ beating.dev.vent.scan = none ∧
    (∀ l, l < 24 → (beating.dev.vent.leg l).xlock = (beating.dev.vent.leg l).xlockHb) ∧ (beating.dev.vent.axis 7).st = .armed ∧
    (List.replicate 8 Auth.run).getD 7 .safe = .run ∧ (List.replicate 8 (none : Option StopAct)).getD 7 none = none ∧ up.dev.link.hb = none := by
  decide +kernel
/-- A status packet on its way, and one that shows axis 3 lower than the heartbeat carried it. -/
def reporting (st : List Auth) : State := with_ fun d => (d.setCst 3 .armed).modLink fun l =>
  { l with status := some d.vent, await := some st, missed := 3 }
def lower3 : List Auth := [.safe, .safe, .safe, .armed, .safe, .safe, .safe, .safe]
/-- The same report after the control die asked for a stop of axis 3. -/
def asked3 : State := with_ fun d => (reporting lower3).dev.modLink fun l => { l with stopReq := uset l.stopReq 3 (some .coast), status := some d.vent }
theorem witness_VentReports : (reporting []).dev.link.status = some upDev.vent ∧ upDev.vent.vrst = false ∧
    (∀ k, k < 8 → (((reporting []).dev.link.await.getD []).getD k .safe).code ≤ (upDev.vent.axis k).st.code) ∧
    (upDev.vent.axis 3).st.code < (((reporting lower3).dev.link.await.getD []).getD 3 .safe).code ∧
    (∀ j, j < 8 → j ≠ 3 → (((reporting lower3).dev.link.await.getD []).getD j .safe).code ≤ (upDev.vent.axis j).st.code) ∧
    (reporting lower3).dev.cst 3 = .armed ∧ (reporting lower3).dev.jnl.ops = [] ∧ (reporting lower3).dev.link.stopReq = [] ∧
    (reporting []).dev.link.await ≠ none ∧ (reporting []).dev.link.missed = 3 ∧ up.dev.link.await = none ∧
    (asked3.dev.link.await.getD []).getD 3 .safe = .armed ∧ uget asked3.dev.link.stopReq 3 ≠ none ∧ asked3.dev.link.status = some upDev.vent ∧
    (hotDev 1179).flag F.THM_STAT_VALID = true ∧ upDev.flag F.THM_STAT_VALID = false ∧
    ((8 * upDev.vent.cfg.tsd : Nat) : Int) ≤ (1280#12).toInt ∧ (reporting []).dev.link.rstArm = false ∧ upDev.vent.tsdLatch = false ∧
    ((hotDev 1179).putB F.SNT_STAT_WINOK 0 true).flag F.SNT_STAT_WINOK = true := by decide +kernel
/-- An exchange for axis 5 at a stage, with the open challenge of the Vent die. -/
def arming (st : ArmStage) : State := with_ fun d => (d.modVent fun v => v.modAxis 5 fun a => { a with chal := some (7, 9) }).modLink fun l =>
  { l with arm := some { axis := 5, n1 := 7, n2 := 3, stage := st } }
theorem witness_ArmingExchange : up.dev.vent.scan = none ∧ (up.dev.vent.axis 5).st = .safe ∧ up.dev.vent.faulted 5 = false ∧
    up.dev.vent.cfgOk = true ∧ up.dev.vent.dfail = false ∧ up.dev.vent.vlow = false ∧ up.dev.vent.temp = none ∧
    ((arming .conf).dev.vent.axis 5).chal = some ((7#32).toNat, (9#32).toNat) ∧ ((arming .conf).dev.vent.axis 5).chal ≠ some (8, 9) ∧
    (∃ x, (arming .done).dev.link.arm = some x ∧ x.axis = 5 ∧ x.stage = .done) ∧ (arming .done).dev.jnl.toArm = [] ∧
    (∃ x, (arming .nak).dev.link.arm = some x ∧ x.stage = .nak ∧ x.n2 = (3 : Fin 7).val) ∧ (arming .nak).dev.jnl.ops = [] ∧
    up.dev.link.arm = none ∧ (vent fun v => { v with dfail := true }).dev.vent.dfail = true ∧ up.dev.wardenUp = true ∧ held.dev.wardenUp = false ∧
    (∃ x, (arming .chal).dev.link.arm = some x ∧ x.axis = 5 ∧ x.stage = .chal ∧ x.n1 = (7#32).toNat) ∧
    (∃ x, (arming .req).dev.link.arm = some x ∧ x.axis = 5 ∧ x.stage = .req ∧ x.stage ≠ .done) ∧
    (∃ x, (arming .lost).dev.link.arm = some x ∧ x.axis = 5 ∧ x.stage = .lost ∧ x.n1 = (7#32).toNat) :=
  ⟨rfl, rfl, by decide +kernel, rfl, rfl, rfl, rfl, rfl, by decide +kernel, ⟨_, rfl, rfl, rfl⟩, rfl, ⟨_, rfl, rfl, rfl⟩, rfl, rfl, rfl, rfl, rfl,
    ⟨_, rfl, rfl, rfl, rfl⟩, ⟨_, rfl, rfl, rfl, by decide⟩, ⟨_, rfl, rfl, rfl, rfl⟩⟩
def clearing : State := with_ fun d => d.modLink fun l => { l with clr := some (d.clearReq 255 15) }
theorem witness_FaultClear : (0x1001#40).getLsbD 12 = true ∧ ((0x1001#40).extractLsb' 0 8).toNat = 1 ∧ up.dev.link.clr = none ∧
    clearing.dev.link.clr = some (upDev.clearReq 255 15) ∧ clearing.dev.jnl.clr = none ∧ (0x0001#40).getLsbD 12 = false ∧
    ((0x1000#40).extractLsb' 0 8).toNat = 0 ∧ ((0x1000#40).extractLsb' 8 4).toNat = 0 ∧ up.dev.wdn.stopped = false ∧
    (clearing.dev.modWdn fun w => { w with stopped := true }).wdn.stopped = true ∧
    (let v := { upDev.vent with hbGood := 2, hbFrame := 2 ^ 40 - 1 }
     2 ≤ v.hbGood ∧ (v.hbFrame + 1) % 2 ^ 40 = upDev.get F.GEY_FCNT) := by decide +kernel
/-- Leg 2 with two carriers per frame of 20,000 cycles and a duty of one half, free, at its first edge; refreshes of leg 1. -/
def carrying (r : RefStep) : State := with_ fun d =>
  ((((((d.put F.GEY_SSTAT_LEN 0 20000).putB F.LEG_CFG_TWO 2 true).setReg (F.LEG_SDUTY.at_ 2) 0x40000000#40).putB F.LEG_STAT_OUTEN 2 true).put
    F.LEG_EDGE_HOFF 2 100).modLeg 2 fun u => { u with cLen := 100, ref := r })
/-- The same leg with its high gate commanded. -/
def commanded : Dev := (carrying .off).dev.modLeg 2 fun u => { u with hcmd := true }
theorem witness_CarriersAndEdges : (carrying .off).dev.awake = true ∧ (carrying .off).dev.sys.sealed = true ∧ (carrying .off).dev.clk.ticked = true ∧
    (carrying .off).dev.ownsLeg 2 = true ∧ (carrying .off).dev.flag F.LEG_CFG_TWO 2 = true ∧ ((carrying .off).dev.leg 2).cAt = (carrying .off).dev.clk.frameStart ∧
    (carrying .off).dev.flag F.LEG_STAT_FLOAT 2 = false ∧ ((carrying .off).dev.leg 2).ref = .off ∧
    ((carrying .off).dev.comm ((carrying .off).dev.owner 0)).short = false ∧
    (carrying .off).dev.get F.LEG_EDGE_HON 2 < (carrying .off).dev.get F.LEG_EDGE_HOFF 2 ∧ ((carrying .off).dev.leg 2).pend ≠ some true ∧
    ((carrying .due).dev.leg 2).ref = .due ∧ ((carrying .due).dev.leg 2).lcmd = false ∧ ((carrying .low).dev.leg 2).ref = .low ∧
    ((carrying .off).dev.leg 2).leaving = false ∧ 8 * (carrying .off).dev.clk.now < 8 * ((carrying .off).dev.leg 2).cAt + 100 ∧
    ((carrying .due).dev.leg 2).pend ≠ some false ∧ (commanded.leg 2).hcmd = true ∧ (commanded.leg 2).lcmd = false ∧
    (commanded.leg 2).pend ≠ some false ∧ commanded.get F.LEG_EDGE_HOFF 2 < 8 * (commanded.leg 2).cLen ∧
    ((upDev.modVent fun v => v.modBrake 3 fun b => { b with cmd := true }).vent.brake 3).cmd = true ∧
    (let d := (carrying .low).dev.put F.LEG_EDGE_HOFF 2 1000
     let t := (d.leg 2).lOnAt + max (320 * (d.get F.LEG_CFG_REFW 2 + 1)) (8 * d.get F.LEG_CFG_MINPULSE 2)
     8 * d.clk.now ≤ t ∧ d.get F.LEG_EDGE_HON 2 ≤ t + 64 * (d.get F.LEG_CFG_DT 2 + 1) - 8 * (d.leg 2).cAt ∧
       t + 64 * (d.get F.LEG_CFG_DT 2 + 1) - 8 * (d.leg 2).cAt < d.get F.LEG_EDGE_HOFF 2) ∧
    ((carrying .low).dev.putB F.LEG_STAT_FLOAT 2 true).flag F.LEG_STAT_FLOAT 2 = true ∧
    up.dev.flag F.LEG_CFG_TWO 2 = false ∧ ((0x40000000 : Nat) * (8 * 10000) + 2 ^ 30) / 2 ^ 31 = 40000 := by decide +kernel

/-! ### Witnesses: resets, boot, seal, frame -/

theorem witness_ResetCauses : up.dev.awake = true ∧ up.dev.flag F.SNT_STAT_PROG 0 = false ∧ held.dev.awake = false ∧
    (with_ fun d => d.putB F.SNT_STAT_PROG 0 true).dev.flag F.SNT_STAT_PROG = true ∧ (199 : Nat) < 200 ∧ (999 : Nat) < 1000 ∧
    up.dev.wdn.stopped = false ∧ up.dev.wardenUp = true ∧ up.dev.sys.vioWarn = true ∧
    ({ upDev with sys := { upDev.sys with vioWarn := false } } : Dev).sys.vioWarn = false := by decide +kernel
/-- Out of reset with the boot read done, waiting for a copy or a push. -/
def loading (st : Nat) : State := with_ fun d =>
  { ((d.putB F.SNT_STAT_BOOTDONE 0 true).put F.SYS_IMGSTAT_STATE 0 st) with sys := { d.sys with sealed := false } }
theorem witness_BootAndImage : held.dev.awake = false ∧ held.dev.sys.clear = true ∧ (loading 0).dev.mayLoad = true ∧
    (loading 0).dev.get F.SYS_IMGSTAT_STATE = 0 ∧ (loading 0).dev.img.nextCopy < 2 ∧
    (loading 0).dev.checkImage [] [] none = .error { code := Img.noImage } ∧ (loading 4).dev.mayLoad = true ∧
    (loading 4).dev.get F.SYS_IMGSTAT_STATE = 4 ∧ (0x8000000020#40).getLsbD 39 = true ∧ (loading 1).dev.get F.SYS_IMGSTAT_STATE ≠ 4 ∧
    (with_ fun d => { d with sys := { d.sys with portUp := false } }).dev.sys.portUp = false :=
  ⟨by decide +kernel, by decide +kernel, by decide +kernel, by decide +kernel, by decide +kernel, by rfl, by decide +kernel, by decide +kernel,
    by decide +kernel, by decide +kernel, rfl⟩
/-- An image without an axis, written out from chapter 2: TOPOLOGY of eight disabled axes, GEY with a period of 10000, JOURNAL
at 100 and HEARTBEAT at 2000, JNL with one class, LIMITS with no entry, SIG made with the private key 7 and the nonce 11.
BUILD_ID is 9, ROLLBACK 6. -/
def smallImage : List Byte := leBytes 324
  0x91FACFC59D91653744EE1576639CFDE67FD0B148A1A9858437320F5258D6BFD235657BB4D121BC74D3913343BF485025D02E7416DA1CC2B09D373806594C3B88B713D13EB400F4C1861A5EC5211B04CB3336C7530090F5A6839F066D361833E0BD1DEB73A3B28731702806305BEF0FA8B8F8F97E60FB017C6630BB25467BBFA06F3B538E00000080000000FF6236F204000000000000000400000009F8C0956AFF000F0000000001010000400000000C00000008C7282ADD0000000407D00111000000030064011000000000271001000000001800000005784314B300FFFFFFFFFFFF0000FFFFFFFFFFFF0000FFFFFFFFFFFF0000FFFFFFFFFFFF0000FFFFFFFFFFFF0000FFFFFFFFFFFF0000FFFFFFFFFFFF0000FFFFFFFFFFFF000000004000000001970D75650000000900000005000000060000084000000144002000014E4F5356
/-- The fuses of its key: the SHA-256 digest of the public key in key slot 0. -/
def smallOtp : List (Nat × Option Word) := [(0x100, some 0x2238F0E3#40), (0x101, some 0x48C0445A#40), (0x102, some 0x60AFFD24#40), (0x103, some 0x8BFE765D#40),
  (0x104, some 0xB34318C0#40), (0x105, some 0xA10BFC9F#40), (0x106, some 0xC7423170#40), (0x107, some 0xE019D490#40)]
set_option maxRecDepth 100000 in
theorem witness_imageAccepted : (match (loading 0).dev.checkImage smallOtp smallImage none with
    | .ok m => m.buildId == 9 && m.rollback == 6 && m.keySlot == 0 | .error _ => false) = true := by decide +kernel
def sealing (n : Nat) (on : Bool) : State := with_ fun d => { d with
  img := { d.img with staged := some {}, sealing := on }, sys := { d.sys with sealed := false }, link := { d.link with cfg := some {}, cfgTry := n } }
theorem witness_SealAndConfiguration : (sealing 1 false).dev.img.staged = some {} ∧ (sealing 1 false).dev.img.sealing = false ∧
    (sealing 1 false).dev.sys.sealed = false ∧ (sealing 1 false).dev.awake = true ∧ (sealing 3 true).dev.link.cfg = some {} ∧
    (sealing 3 true).dev.img.sealing = true ∧ (sealing 3 true).dev.sys.retDigest = none ∧ (sealing 3 true).dev.vent.inReset = false ∧
    (sealing 3 true).dev.link.cfgTry = 3 ∧ (sealing 1 false).dev.wardenUp = true ∧ up.dev.link.cfg = none ∧ up.dev.img.cur.advance = false := by decide +kernel
/-- An image whose parameter of axis 0 is 10, within LIMITS and beyond them. -/
def limited (n : Nat) : Image := { regs := [(F.AX_PARAM.at_ 0, 10)], masks := [(F.AX_PARAM.at_ 0, 0xFFFF)], wrote := [(2 * F.AX_PARAM.at_ 0, (7, 0, 9))]
                                   ranges := [{ addr := F.AX_PARAM.at_ 0, lsb := 0, width := 16, sgn := false, min := 0, max := n }] }
theorem witness_liveErr : ((limited 10).derive upDev).liveErr upDev = none ∧ (((limited 9).derive upDev).liveErr upDev).isSome = true := by decide +kernel
/-- The own advance from 0 to 2, with and without an open window. -/
def advancing (open_ : Bool) : State := with_ fun d => { d.putB F.SNT_STAT_WINOK 0 open_ with
  img := { d.img with cur := { d.img.cur with advance := true, rollback := 2 } } }
theorem witness_rollbackAdvance : (advancing true).dev.rollbackValue (advancing true).otp imageCounter < (advancing true).dev.img.cur.rollback ∧
    (advancing true).dev.windowOpen = true ∧ (advancing false).dev.windowOpen = false ∧ (advancing true).dev.wdn.svc = none ∧
    ((advancing true).dev.rollWord (advancing true).otp 0x380).getLsbD 0 = false ∧ (advancing true).dev.wardenUp = true ∧
    (advancing true).dev.sys.sealed = true := by decide +kernel
def committing (v : Bool) : State := with_ fun d => d.modGey fun g => { g with commit := some { validated := v, deferred := false, ticksLeft := 1 } }
def following : State := with_ fun d => ((d.put F.GEY_PERIOD_PERIOD 0 20000).putB F.GEY_SYNC_FOLLOW 0 true).modGey fun g => { g with master := some 5 }
theorem witness_GeyserTick : up.dev.awake = true ∧ up.dev.sys.sealed = true ∧ held.dev.awake = false ∧ up.dev.gey.commit = none ∧
    (committing true).dev.gey.commit = some { validated := true, deferred := false, ticksLeft := 1 } ∧ following.dev.gey.master = some 5 ∧
    following.dev.flag F.GEY_SYNC_FOLLOW = true ∧ (0 : Int) < (following.dev.get F.GEY_PERIOD_PERIOD : Int) ∧
    (following.dev.get F.GEY_SYNC_SLEW : Int) < (following.dev.get F.GEY_PERIOD_PERIOD : Int) ∧ up.dev.gey.master = none ∧
    (up.dev.acc 255).cnt < 2 ^ F.ACC_HCNT_CNT.width ∧ (up.dev.brk 3).next < 2 ^ 40 := by decide +kernel
/-- What the parts of a tick find: a bank with its reference, a unit with an axis, the legs of an axis, a sequencer, a patrol. -/
theorem witness_tickParts : (∀ s, s < 32 → slotAction (up.dev.aslot s) ≠ 0 → up.dev.gey.started.testBit s = true) ∧
    ((up.dev.putB F.ADC_STAT_REFOK 15 true).put F.ADC_CTL_LEN 15 1).flag F.ADC_STAT_REFOK 15 = true ∧ (up.dev.bank 15).started = false ∧
    0 < ((up.dev.putB F.ADC_STAT_REFOK 15 true).put F.ADC_CTL_LEN 15 1).seqLen 15 ∧ up.dev.axisOfFbk 0 = some 1 ∧
    up.dev.ownsLeg 2 = true ∧ up.dev.ownsLeg 23 = false ∧ (up.dev.comm 0).st ≠ .track ∧ up.dev.get F.AX_CFG_OBSREP 0 = 7 ∧
    ((up.dev.put F.AX_CFG_OBSREP 0 5).modComm 0 fun c => { c with st := .track }).get F.AX_CFG_OBSREP 0 < 6 ∧ up.dev.primary 1 = true ∧
    (up.dev.putB F.ENG_PCTL_PATROL 0 true).flag F.ENG_PCTL_PATROL = true ∧ up.dev.freeRes 8 = true ∧ (up.dev.setHold 8 0).freeRes 8 = false ∧
    (let d := (up.dev.putB F.ENG_CKPT_VALID 0 true).put F.ENG_CKPT_FRAME 0 (2 ^ 24 - 1)
     d.engineOf 0 = some 0 ∧ d.flag F.ENG_CKPT_VALID 0 = true ∧ d.get F.ENG_CKPT_FRAME 0 = (d.get F.GEY_FCNT + 2 ^ 24 - 1) % 2 ^ 24) := by decide +kernel
/-- Slot 31 active with an action for axis 0 at offset 9. -/
def slotted (act : Nat) : State := with_ fun d => d.setReg (F.GEY_ASLOT.at_ 31) (BitVec.ofNat 40 (9 + act * 2 ^ 16 + 2 ^ 20))
/-- A MODE entry for axis 1 that waits since an earlier frame, with the range of its mode. -/
def modeEntry : Entry := { src := 5, seq := 1, code := 3, mask := 2, flags := 0, arg0 := 1, arg1 := 0, frame := 0, slot := 0, fresh := false }
def modeWaits : State := { slotted 3 with dev := { (slotted 3).dev with
  jnl := { (slotted 3).dev.jnl with entries := [modeEntry] }
  img := { upDev.img with cur := { upDev.img.cur with
    ranges := (fieldsAt (F.AX_MODE.at_ 1)).map fun f => { addr := F.AX_MODE.at_ 1, lsb := f.lo, width := f.width, sgn := false, min := 0, max := 3 } } } } }
theorem witness_SlotActions : (∀ act, act < 8 → (((slotted act).dev.reg (F.GEY_ASLOT.at_ 31)).extractLsb' 16 4).toNat = act) ∧
    (slotted 6).dev.awake = true ∧ (slotted 6).dev.sys.sealed = true ∧ (slotted 6).dev.clk.ticked = true ∧
    (slotted 6).dev.gey.started.testBit 31 = false ∧ (slotted 6).dev.gey.late.testBit 31 = false ∧ (slotted 4).dev.link.cfg = none ∧
    (slotted 3).dev.jnl.entries.filter (fun e => !e.fresh) = [] ∧ (sealing 1 true).dev.link.cfg ≠ none ∧
    ((modeWaits.dev.jnl.entries.filter fun e => !e.fresh).take 64 = [modeEntry]) ∧ modeWaits.dev.jnl.mirror < 3 ∧
    (modeWaits.dev.at_ 9).con.bad = [] ∧ (modeWaits.dev.at_ 9).resvOf 10 = none ∧ modeWaits.dev.jnl.unwritten = [] ∧
    (∀ k, k < 8 → modeEntry.mask.testBit k = true → modeWaits.dev.primary k = true ∧
      ((modeWaits.dev.at_ 9).judge .journal (F.AX_MODE.at_ k) (BitVec.ofNat 40 (modeEntry.arg0.toNat % 4))).isSome = true) ∧
    (∀ c, c < 4 → (slotted 5).dev.flag F.CAN_CTL_RPLBUF c = false) := by decide +kernel
/-- A checkpoint burst of two words of engine 3. -/
def burst3 : Burst := { addr := ckptAt 3 0, words := [5, 6], header := 7, half := 0, frame := 1, since := 9 }
def bursts : Dev := upDev.modEng 3 fun u => { u with burst := some burst3 }
theorem witness_RunStartAndCheckpoint : (((slotted 1).dev.reg (F.GEY_ASLOT.at_ 31)).extractLsb' 20 8).toNat = 2 ^ 0 ∧
    (slotted 1).dev.engineOf 0 = some 0 ∧ (slotted 1).dev.gey.ran.testBit 0 = false ∧ (slotted 1).dev.shadows 8 ≠ 0 ∧
    (slotted 1).dev.shadows 9 ≠ 0 ∧ ((slotted 1).dev.run 0).live = false ∧ (running.dev.run 0).live = true ∧
    (slotted 1).dev.patrol.takeover = [] ∧ (slotted 2).dev.ckptWaits 0 0 = false ∧ ((slotted 2).dev.eng 0).ckptDue = false ∧
    (((slotted 2).dev.modEng 0 fun u => { u with ckptDue := true }).eng 0).ckptDue = true ∧ ((slotted 2).dev.progOf 0).ckpt ≤ 64 ∧
    running.dev.ckptWaits 0 0 = true ∧ (∀ x ∈ (slotted 1).dev.patrol.takeover, x.1 ≠ 0) ∧ (bursts.eng 3).burst = some burst3 ∧
    (∀ j, j < 10 → j ≠ 3 → (bursts.eng j).burst = none) ∧ bursts.con.resv = [] ∧ bursts.con.queues = [] ∧ burst3.words.length ≤ 64 ∧ burst3.half < 2 ∧
    (let start := max (bursts.conBusy 15) burst3.since
     let left := burst3.words.length + 1 - burst3.next
     start + left ≤ bursts.clk.now + 12 ∧ start < bursts.clk.now + 10 ∧ bursts.clk.now + 10 < start + left ∧ bursts.clk.now + 9 ≤ start) ∧
    (bursts.eng 3).ckptDue = false := by decide +kernel
def fullTable : List Word := tabulate 32 fun i => up.dev.reg (F.GEY_SLOT.at_ i)
theorem witness_CommitAndPhase : up.dev.gey.commit = none ∧ up.dev.clk.now ≤ up.dev.clk.frameStart + 0 ∧ (committing false).dev.gey.commit ≠ none ∧
    up.dev.hostUp = true ∧ up.dev.gey.syncAt = none ∧ (up.dev.modGey fun g => { g with syncAt := some 3 }).gey.syncAt = some 3 ∧
    following.dev.gey.master = some 5 ∧ (tableBreach up.dev.slotEnv fullTable).isSome = true ∧ following.dev.flag F.GEY_SYNC_FOLLOW = true ∧ up.dev.flag F.GEY_SYNC_FOLLOW = false := by
  decide +kernel


/-- A table of JOURNAL, PROG and CKPT for both axes, and HEARTBEAT, in a frame of 20,000 cycles. -/
def timed : State := with_ fun d => ((((d.put F.GEY_PERIOD_PERIOD 0 20000).setReg (F.GEY_SLOT.at_ 0) 0x30064#40).setReg (F.GEY_SLOT.at_ 1)
  0x310578#40).setReg (F.GEY_SLOT.at_ 2) 0x320FA0#40).setReg (F.GEY_SLOT.at_ 3) 0x412C0#40
theorem witness_validTable : tableBreach timed.dev.slotEnv (tabulate 32 fun i => timed.dev.reg (F.GEY_SLOT.at_ i)) = none := by decide +kernel

/-! ### Witnesses: ADC, feedback, commutation, start -/

def sampling : State := with_ fun d => (((d.putB F.ADC_STAT_REFOK 15 true).putB F.ADC_STAT_RUN 15 true).put F.ADC_CTL_LEN 15 1)
theorem witness_AdcSample : (sampling.dev.at_ 65535).sampleDue 15 0 0 = true ∧ sampling.dev.sampleDue 15 1 0 = false ∧ up.dev.sampleDue 0 0 0 = false ∧
    ((with_ fun d => d.modAcc 255 fun u => { u with cleared := some (d.clk.now, 1, 65535) }).dev.acc 255).cleared = some (up.dev.clk.now, 1, 65535) ∧
    up.dev.axisOfPair 7 = none ∧ (up.dev.acc 255).cleared = none := by
  decide +kernel
def referenced : State := with_ fun d => d.putB F.ADC_STAT_REFOK 0 true
theorem witness_ReferencesAndAdcControl : up.dev.awake = true ∧ up.dev.sys.sealed = true ∧ up.dev.flag F.ADC_STAT_REFOK 0 = false ∧
    up.dev.get F.ADC_CTL_REFSEL 0 = 0 ∧ (up.dev.bank 0).started = false ∧ referenced.dev.flag F.ADC_STAT_REFOK 0 = true ∧
    referenced.dev.axisOfPair 0 = some 0 ∧ up.dev.axisOfPair 7 = none ∧ up.dev.axisOfPair 1 = some 1 ∧ (up.dev.topo 1).fbk = 0 ∧
    up.dev.axisOfFbk 0 = some 1 ∧ (up.dev.fbk 0).pipe = [] ∧ (up.dev.comm 1).ramp = none ∧ up.dev.flag F.FBK_CFG_LOSSACT 0 = false ∧
    up.dev.partner 1 = none ∧ (up.dev.setCst 1 .run).cst 1 = .run ∧ up.dev.get F.LEG_CFG_POLICY 3 ≠ 3 ∧ held.dev.awake = false ∧
    (¬∃ k, k < 8 ∧ (95 : Fin 96).val / 10 = k ∧ (up.dev.cst k ≠ .safe ∨ up.dev.vst k ≠ .safe ∨ up.dev.arming k = true)) ∧
    ((3#40).extractLsb' 0 2).toNat = 3 ∧ up.dev.img.cur.pairs.testBit 7 = true ∧ up.dev.img.sealing = false ∧
    ((referenced.dev.modFbk 0 fun u => { u with valid := true }).fbk 0).valid = true ∧ (arming .req).dev.arming 5 = true := by
  decide +kernel
/-- A pair in the pipe of unit 0, with the phase at the end of its line. -/
def piping (phi : Nat) : State := with_ fun d => d.modFbk 0 fun x => { x with pipe := [(10000, 0, 4)], begun := true, phi := phi }
theorem witness_SamplePair : (piping 4095).dev.awake = true ∧ ((piping 4095).dev.fbk 0).pipe = [(10000, 0, 4)] ∧ ((piping 4095).dev.fbk 0).refLoss = false ∧
    (piping 4095).dev.axisOfFbk 0 = some 1 ∧ ((piping 4095).dev.comm 1).ramp = none ∧ ((piping 4095).dev.fbk 0).begun = true ∧
    (signed 12 ((1024 + 4096 - 4095) % 4096)).natAbs = 1025 ∧ (signed 12 ((0 + 4096 - 4095) % 4096)).natAbs ≤ 512 ∧ up.dev.axisOfFbk 7 = none ∧
    up.dev.clk.ticked = true ∧ up.dev.clk.now = up.dev.clk.frameStart ∧ (up.dev.fbk 0).begun = false ∧ (up.dev.fbk 0).lost = false ∧
    ((up.dev.modFbk 0 fun u => { u with rearm := true, lost := true }).fbk 0).rearm = true := by
  decide +kernel
/-- Axis 0's sequencer in a state, with the clock at 20 ms. -/
def starting (f : CommUnit → CommUnit) : State := with_ fun d => { d.modComm 0 f with clk := { d.clk with now := 8000000, frameStart := 8000000 } }
theorem witness_CatchAndBrake : up.dev.partner 0 ≠ some 8 ∧
    ((starting fun c => { c with st := .catch_ }).dev.comm 0).since + (starting id).dev.live F.AX_CATCH_TCATCH 0 * 400000 ≤ 8000000 ∧
    ((starting fun c => { c with st := .brake, allFloat := true }).dev.comm 0).cycleAt + 8000000 ≤ 8000000 ∧
    (starting fun c => { c with st := .brake, short := true }).dev.len = 0 ∧ (7600000 : Nat) < 8000000 + 0 ∧
    ((starting fun c => { c with st := .catch_, wait := true }).dev.comm 0).wait = true ∧
    ((starting fun c => { c with st := .catch_ }).dev.comm 0).wait = false ∧ (up.dev.comm 0).st = .idle := by decide +kernel
theorem witness_SequencerFaults : up.dev.lead 0 = 0 ∧ (up.dev.topo 0).drive ≠ 2 ∧ (up.dev.comm 0).ramp = none ∧
    (let c := (starting fun c => { c with st := .start, clRuns := 1 }).dev.comm 0
     c.st = .start ∧ (starting id).dev.live F.AX_SEQT_SCLN 0 ≤ c.clRuns ∧ 0 < c.clRuns) ∧
    (starting id).dev.live F.AX_SCFG_RETRY 0 ≤ (starting id).dev.get F.AX_SSTAT_ATTEMPT 0 ∧
    ((starting id).dev.put F.AX_SCFG_RETRY 0 1).get F.AX_SSTAT_ATTEMPT 0 < 1 ∧
    (let c := (starting fun c => { c with st := .brake, cycleAt := 8000000 }).dev.comm 0
     c.since < c.cycleAt ∧ c.since + (starting id).dev.live F.AX_CATCH_TBRK 0 * 40000000 ≤ 8000000) ∧
    (starting fun c => { c with st := .lost }).dev.live F.AX_SEQT_REACQ 0 ≤ ((starting fun c => { c with st := .lost }).dev.comm 0).ticks ∧
    (∃ t, ((starting fun c => { c with ramp := some 0 }).dev.comm 0).ramp = some t ∧ t + up.dev.get F.AX_RAMP_TRAMP 0 * 4000000 ≤ 8000000) :=
  ⟨by decide +kernel, by decide +kernel, by decide +kernel, by decide +kernel, by decide +kernel, by decide +kernel, by decide +kernel, by decide +kernel,
    ⟨0, by decide +kernel, by decide +kernel⟩⟩
/-- A unit at an angle with a window open on row 0. -/
def windowed (st : CState) (g : Nat) : State := starting fun c => { c with st := st, g := g, rate := 1, wen := true, win := some { row := 0 } }
theorem witness_FloatWindows : up.dev.primary 0 = true ∧ up.dev.primary 7 = false ∧ (up.dev.comm 0).win = none ∧ (up.dev.topo 0).drive = 0 ∧
    (∃ g, g ∈ [0, 2 ^ 46] ∧ ((windowed .track g).dev.at_ 0).windowRow 0 ≠ some 0 ∧ (((windowed .track g).dev.at_ 0).comm 0).pastFar 0 = true) ∧
    (windowed .track 0).dev.live F.AX_SEQT_LOSSN 0 ≤ 1 ∧ ((windowed .start 0).dev.comm 0).win = some { row := 0 } := by decide +kernel

/-! ### Witnesses: registers, host port, journal -/

theorem witness_RegisterWrites : up.dev.awake = true ∧ regRow 0x220A = none ∧ regRow 0x2202 ≠ none ∧ regRow 0x100 ≠ none ∧
    (∃ f ∈ fieldsAt 0x100, f.acc = .seal ∧ fget 1#40 f.lo f.width ≠ fget (up.dev.present 0x100) f.lo f.width) ∧ up.dev.sys.sealed = true ∧
    (∀ f ∈ fieldsAt 0x2202, f.acc = .rw) ∧ (0#40).getLsbD 39 = false ∧ (0x8000000000#40).getLsbD 39 = true ∧
    up.dev.get F.WDN_MBSTAT_STATE ≠ 1 ∧ (0x411 % 128 = 0x11 ∧ 0x400 ≤ 0x411 ∧ 0x411 < 0x800) ∧ up.dev.con.prio = none ∧
    held.dev.awake = false ∧ (up.dev.judge .host (F.CON_PRIO.at_ 0) (up.dev.reg (F.CON_PRIO.at_ 0))).isSome = true ∧ up.dev.sys.portUp = true := by
  decide +kernel
/-- Frames with their CRC: a read of 0x2202, a write of 0x2202, a read of 0x4000, a read of 0x3000. -/
def frameOf (rd : Bool) (a : BitVec 15) (w : Word) : BitVec 64 :=
  let x : BitVec 64 := (BitVec.ofBool rd ++ a ++ w) ++ 0#8
  x ||| BitVec.ofNat 64 (crc8 (frameBytes x.toNat))
def bursting (q : Bool) : State := with_ fun d => d.modHost fun h => { h with burst := some (true, 0x2202, 1), seqErr := q, window := none }
theorem witness_frameRead : crc8 (frameBytes (frameOf true 0x2202#15 5).toNat) = ((frameOf true 0x2202#15 5).extractLsb' 0 8).toNat := by decide +kernel
theorem witness_frameWrite : crc8 (frameBytes (frameOf false 0x2202#15 5).toNat) = ((frameOf false 0x2202#15 5).extractLsb' 0 8).toNat := by decide +kernel
theorem witness_frameWindow : crc8 (frameBytes (frameOf false 0x7FFF#15 5).toNat) = ((frameOf false 0x7FFF#15 5).extractLsb' 0 8).toNat := by decide +kernel
theorem witness_frameBad : crc8 (frameBytes (0#64).toNat) ≠ ((0#64).extractLsb' 0 8).toNat := by decide +kernel
theorem witness_HostFrames : up.dev.sys.portUp = true ∧ up.dev.host.dead = false ∧ up.dev.host.window = none ∧ up.dev.host.burst = none ∧
    (bursting true).dev.host.seqErr = true ∧ burstAddr 0x2202 1 ≠ 0x2202 ∧ regRow 0x3000 = none ∧ up.dev.sys.calInit = false ∧ up.dev.awake = true ∧
    (upDev.modHost fun h => { h with dead := true }).host.dead = true ∧
    up.dev.hostMayWrite 0 = true := by decide +kernel
theorem witness_refusedWrite : up.dev.judge .host 0x100 1 = none ∧ up.dev.hostMayWrite 14 = false := by decide +kernel
def batching (l : List Word) (sp : Bool) : State := with_ fun d => d.modHost fun h => { h with burst := some (false, 0x1E40, 1), jnl := true, words := l, spoiled := sp }
def windowing (rd : Bool) : State := with_ fun d => d.modHost fun h => { h with window := some ({ rd := rd, addr := 0x7FFF, data := 7 }, 31) }
/-- The window's request waits alone at its bank. -/
def windowServed : Dev := (windowing true).dev.modQueue (bankOf 524287) fun _ => [{ req := 12, since := 0, addr := 524287, kind := .bulk 1 }]
theorem witness_BurstsAndWindow : (batching [1] false).dev.host.burst ≠ none ∧ (batching [1] false).dev.host.jnl = true ∧
    (batching [1] false).dev.host.words.length = 1 ∧ (batching [] true).dev.host.spoiled = true ∧ up.dev.host.burst = none ∧
    (windowing true).dev.host.window = some ({ rd := true, addr := 0x7FFF, data := 7 }, 31) ∧ (windowing false).dev.host.window.isSome = true ∧
    up.dev.jnl.fifo = [] ∧ 31 * 16384 + (0x7FFF - 0x4000) = 524287 ∧ (bursting false).dev.host.jnl = false ∧ (windowing true).dev.awake = true ∧
    ((windowing true).dev.granted (bankOf (31 * 16384 + (0x7FFF - 0x4000))) fun r => r.req == 12).2 = none ∧
    (windowServed.granted (bankOf 524287) fun r => r.req == 12).2 = some { req := 12, since := 0, addr := 524287, kind := .bulk 1, at_ := some 1 } ∧
    windowServed.con.bad = [] ∧ windowServed.con.wb = [] := by
  decide +kernel
/-- A batch of one command: HELLO of source 5. -/
theorem witness_goodBatch :
    let cmds := [{ src := 5, seq := 1, code := 1, mask := 0, flags := 0, args := [], tag := none : Cmd }]
    hostCmds 2 [0x0100000105#40, 0] = some cmds ∧ up.dev.jnl.batches = [] ∧ anyRefused (up.dev.walk up.otp 0 cmds up.dev.jnl).2 = false ∧
    up.dev.batchFault (newCount (up.dev.walk up.otp 0 cmds up.dev.jnl).2) = none := by decide +kernel
/-- Source 5 registered with record 1 of a command, no journal entries. -/
def sourced (code st : Nat) : State := with_ fun d => { d with jnl := { d.jnl with
  sources := [(0, some { src := 5, last := 1, auth := false, path := 0, idle := 0, recs := [(1, { seq := 1, code := code, st := st })] })] } }
theorem witness_JournalWrites : (sourced 2 0).dev.awake = true ∧ (sourced 2 0).dev.sys.sealed = true ∧ (sourced 2 0).dev.jnl.entries = [] ∧
    (∀ k, k < 8 → (3 : Nat).testBit k = true → (sourced 2 0).dev.primary k = true) ∧ (sourced 2 0).dev.primary 2 = false ∧
    ((sourced 2 0).dev.judge .journal (F.AX_MODE.at_ 0 + 3) 0x2800000000#40).isSome = false ∧
    ((sourced 2 0).dev.judge .journal (F.AX_MODE.at_ 0 + 1) 0x2800000000#40).isSome = false ∧
    hasLive 0x2202 = false ∧ hasLive (F.AX_PARAM.at_ 0) = true ∧ ((sourced 8 0).dev.judgeLive (F.AX_PARAM.at_ 0) 1).isSome = false ∧
    (sourced 8 0).dev.jnl.params = [] ∧ regRow 0x3000 = none ∧ regRow 0x2202 ≠ none ∧ (sourced 9 0).dev.jnl.mirror = 0 ∧
    (sourced 2 0).dev.resvOf 10 = none ∧ (sourced 2 0).dev.jnl.unwritten = [] ∧ (sourced 2 0).dev.con.bad = [] ∧
    (∃ x, (modeWaits.dev.jnl.entries.find? fun x => x.src == 5 && x.seq == 1 && x.code == 3) = some x) ∧
    (modeWaits.dev.modJnl fun j => { j with mirror := 3 }).jnl.mirror = 3 :=
  ⟨by decide +kernel, by decide +kernel, by decide +kernel, by decide +kernel, by decide +kernel, by decide +kernel, by decide +kernel, by decide +kernel,
    by decide +kernel, by decide +kernel, by decide +kernel, by decide +kernel, by decide +kernel, by decide +kernel, by decide +kernel, by decide +kernel,
    by decide +kernel, ⟨modeEntry, by decide +kernel⟩, by decide +kernel⟩
/-- The same with ranges for SETT of axis 0 and for one parameter, so that a write of them is admitted. -/
def ranged : State := { sourced 2 0 with dev := { (sourced 2 0).dev with img := { upDev.img with cur := { upDev.img.cur with
  ranges := ((fieldsAt (F.AX_PARAM.at_ 0)).map fun f => { addr := F.AX_PARAM.at_ 0, lsb := f.lo, width := f.width, sgn := false, min := 0, max := 9 }) ++
    (List.range 2).flatMap fun k => (List.range 3).flatMap fun i => (fieldsAt (F.AX_MODE.at_ k + i)).map fun f =>
      { addr := F.AX_MODE.at_ k + i, lsb := f.lo, width := f.width, sgn := false, min := 0, max := 9 } } } } }
theorem witness_admitted : (∀ k, k < 2 → ∀ i, i < 3 → (ranged.dev.judge .journal (F.AX_MODE.at_ k + i) 1).isSome = true) ∧
    (ranged.dev.judgeLive (F.AX_PARAM.at_ 0) 9).isSome = true ∧ (ranged.dev.judgeLive (F.AX_PARAM.at_ 0) 10).isSome = false := by decide +kernel
/-- An axis that nothing keeps from arming, or the one whose reason is named. -/
theorem witness_JournalAuthority : (sourced 4 0).dev.maskAxes 3 = [0, 1] ∧ (∀ k, k < 2 → (sourced 4 0).dev.cst k = .safe) ∧
    (sourced 4 0).dev.jnl.ops = [] ∧ (sourced 4 0).dev.link.arm = none ∧ (sourced 4 0).dev.jnl.toArm = [] ∧ up.dev.partner 7 ≠ some 8 ∧
    (sourced 4 0).dev.get F.LEG_CFG_POLICY 0 ≠ 3 ∧ (∃ x, (sourced 4 1).dev.jnl.source 5 = some x ∧ (x.record 1).isSome = true) ∧
    up.dev.jnl.source 5 = none ∧ (sourced 7 0).dev.link.clr = none ∧ clearing.dev.link.clr ≠ none ∧
    ((sourced 4 0).dev.armReason 0 = 0 ∨ ((sourced 4 0).dev.maskAxes 1).find? (fun k => (sourced 4 0).dev.armReason k != 0) = some 0) :=
  ⟨by decide +kernel, by decide +kernel, rfl, rfl, rfl, by decide +kernel, by decide +kernel, ⟨_, rfl, by decide +kernel⟩, rfl, rfl, by decide +kernel,
    by decide +kernel⟩
/-- A command of a source: HELLO of 5, and the commands after it. -/
def cmdOf (src seq code : Nat) (args : List Word) (mask : Nat) : Cmd := { src := src, seq := seq, code := code, mask := mask, flags := 0, args := args, tag := none }
def batched (s : State) (c : Cmd) : State := { s with dev := s.dev.modJnl fun j => { j with batches := [{ cmds := [c], path := 0 }] } }
theorem witness_BatchesAndSources : (cmdOf 5 2 1 [] 0).layoutOk = true ∧ (cmdOf 5 2 3 [4] 1).layoutOk = false ∧
    upDev.classOf 200 = none ∧ upDev.classOf 5 = some { first := 0, last := 15, auth := false, key := 0 } ∧
    upDev.classOf 31 = some { first := 16, last := 31, auth := true, key := 0 } ∧ upDev.fateOf [] upDev.jnl (cmdOf 5 2 1 [] 0) = .new true ∧
    (sourced 2 0).dev.fateOf [] (sourced 2 0).dev.jnl (cmdOf 5 2 5 [] 1) = .new false ∧
    (sourced 2 0).dev.fateOf [] (sourced 2 0).dev.jnl (cmdOf 5 1 2 [0, 0] 1) = .dup ∧
    (batched (sourced 2 0) (cmdOf 5 2 5 [] 1)).dev.jnl.batches = [{ cmds := [cmdOf 5 2 5 [] 1], path := 0 }] ∧
    (sourced 2 0).dev.jnl.entries.length < (sourced 2 0).dev.jnlSize ∧ (sourced 2 0).dev.jnl.mirror = 0 ∧
    (sourced 2 0).dev.jnl.slotOf 5 = some 0 ∧ (sourced 2 0).dev.jnl.slotOf 6 = none ∧ (sourced 2 0).dev.get F.JNL_CFG_TIMEOUT ≤ 0 ∧
    (sourced 2 0).dev.jnl.busy 5 = false ∧ (sourced 2 0).dev.sys.sealed = true ∧ (sourced 2 0).dev.jnlFlush.con.resv = [] ∧
    (sourced 2 0).dev.jnlFlush.con.bad = [] ∧ ({ upDev with con := { resv := [{ req := 11, banks := [], held := [14], staged := [] }] } } : Dev).jnlFlush.con.resv ≠ [] := by decide +kernel

/-! ### Witnesses: CAN -/

/-- C0 on the bus with TXB0 READY and TXB1 ACTIVE when `act` holds. -/
def canDev (st0 st1 : Nat) : State := with_ fun d => ((d.put F.CAN_STAT_STATE 0 0).put (txSt 0) 0 st0 |>.put (txSt 1) 0 st1).modCtl 0 fun u => { u with mode := .on }
theorem witness_CanTransmit : (canDev 0 4).dev.awake = true ∧ (canDev 0 4).dev.sys.portUp = true ∧ (canDev 0 4).dev.get (txSt 0) 0 = 0 ∧ (canDev 0 4).dev.get (txSt 1) 0 = 4 ∧
    ((canDev 0 4).dev.ctl 0).txReply = false ∧ ((canDev 2 2).dev.ctl 0).mode = .on ∧ (canDev 2 2).dev.get F.CAN_STAT_STATE 0 < 2 ∧
    (canDev 2 2).dev.flag F.CAN_CTL_LISTEN 0 = false ∧ (canDev 2 2).dev.get F.CAN_STAT_TEC 0 ≤ 255 ∧ (canDev 2 2).dev.get (txSt 1) 0 = 2 ∧
    (canDev 2 3).dev.get (txSt 1) 0 = 3 ∧ (canDev 2 3).dev.get (txSt 0) 0 ≠ 3 ∧ (canDev 2 3).dev.flag F.CAN_CTL_RPLBUF 0 = false ∧
    (2#3).getLsbD 1 = true ∧ (65535 : Nat) < 65536 ∧ ((canDev 2 2).dev.ctl 0).halting = false ∧ (canDev 2 3).dev.get F.CAN_STAT_TEC 0 ≤ 255 ∧
    (canDev 2 2).dev.get (txSt 2) 0 ≠ 3 ∧
    (let d := ((canDev 2 3).dev.setReg (F.TXB_ID0.at_ 0 + 16) 0xC0000000#40).putB F.CAN_DBT_TDCEN 0 true
     (d.reg (F.TXB_ID0.at_ 0 + 16)).getLsbD 30 = true ∧ (d.reg (F.TXB_ID0.at_ 0 + 16)).getLsbD 31 = true ∧ d.flag F.CAN_DBT_TDCEN 0 = true) ∧
    255 < (((canDev 2 3).dev.put F.CAN_STAT_TEC 0 256).get F.CAN_STAT_TEC 0) := by decide +kernel
/-- A classic frame of one byte, and C0 with filter 63 taking every base frame with an action. -/
def oneByte (id : BitVec 29) (x : Bool) : CanFrame :=
  { id := id, xtd := x, fdf := false, brs := false, esi := false, rtr := false, dlc := 1, data := [0xA5], stamp := 0 }
def filtering (act : Nat) : State := { canDev 0 0 with dev := (canDev 0 0).dev.modCtl 0 fun u => { u with filters := [(63, (BitVec.ofNat 40 (act * 2 ^ 30), 0))] } }
def receiving (f : CanFrame) : State := { canDev 0 0 with dev := (canDev 0 0).dev.modCtl 0 fun u => { u with cmdq := [f], fifo := [{ frame := f, filter := 0 }] } }
theorem witness_CanReceive : (oneByte 5 false).wf = true ∧ { oneByte 5 false with fdf := true }.wf = true ∧
    ((canDev 0 0).dev.ctl 0).mode = .on ∧ (canDev 0 0).dev.get F.CAN_STAT_STATE 0 < 2 ∧ (canDev 0 0).dev.flag F.CAN_CTL_FDEN 0 = false ∧
    (up.dev.ctl 0).fifo = [] ∧ ((receiving (oneByte 5 true)).dev.ctl 0).mode = .on ∧ { oneByte 5 false with rtr := true, data := [] }.wf = true ∧
    (∀ act, act < 4 → (uget ((filtering act).dev.ctl 0).filters 63).1.extractLsb' 30 3 = BitVec.ofNat 3 act) ∧
    filterMatches (uget ((filtering 3).dev.ctl 0).filters 63) (oneByte 5 false) = true ∧
    (∀ j, j < 63 → filterMatches (uget ((filtering 3).dev.ctl 0).filters j) (oneByte 5 false) = false) ∧
    frameLen (oneByte 5 false) ≤ 8 * 2 ^ (filtering 1).dev.get F.CAN_CTL_ESZ 0 ∧ (filtering 2).dev.flag F.CAN_RXSTAT_LOCKP 0 = false ∧
    ((receiving (oneByte 5 true)).dev.ctl 0).cmdq = [oneByte 5 true] ∧ ((receiving (oneByte 5 true)).dev.ctl 0).fifo ≠ [] ∧
    (0x02000005 : Nat) / 2 ^ 21 % 32 = 0x10 ∧ (0x02000005 : Nat) / 2 ^ 8 % 16 = 0 ∧ (receiving (oneByte 5 true)).dev.get F.JNL_CFG_NODE = 0 ∧
    (receiving (oneByte 5 true)).dev.jnl.transfers = [] ∧ up.dev.flag F.CAN_DMA_EN 0 = false ∧ (up.dev.ctl 0).prb = none := by decide +kernel
def ringed : State := { receiving (oneByte 5 true) with dev := ((receiving (oneByte 5 true)).dev.putB F.CAN_DMA_EN 0 true).put F.CAN_DMA_SLOTS 0 1 }
/-- Its channel may write bank 0, and its burst of 16 words waits there alone. -/
def ringReq : Req := { req := 13, since := 0, addr := 0, kind := .bulk 16 }
def ringAsked : Dev := (ringed.dev.put F.CON_MAP_BANKS 13 1).modQueue 0 fun _ => [ringReq]
theorem witness_dma : ringed.dev.flag F.CAN_DMA_EN 0 = true ∧ (ringed.dev.get F.CAN_DMAP_WR 0 + 1) % (ringed.dev.get F.CAN_DMA_SLOTS 0 + 1) ≠ ringed.dev.get F.CAN_DMAP_RD 0 ∧
    (ringed.dev.ctl 0).dmaStop = false ∧ ringed.dev.dmaMay 0 (bankOf (ringed.dev.get F.CAN_DMA_BASE 0)) = false ∧
    ((ringed.dev.put F.CON_MAP_BANKS 13 1).dmaMay 0 0 = true) ∧ (ringed.dev.ctl 0).fifo ≠ [] ∧ ringed.dev.sys.sealed = true ∧
    ringed.dev.requestOf 0 13 = none ∧ ringAsked.requestOf 0 13 ≠ none ∧ ((ringAsked.dmaRequest 0).granted 0 fun r => r.req == 13).2 = some { ringReq with at_ := some 1 } := by decide +kernel
def canMode (m : BusMode) (tec : Nat) : State := { canDev 3 0 with dev := ((canDev 3 0).dev.put F.CAN_STAT_TEC 0 tec).modCtl 0 fun u => { u with mode := m } }
theorem witness_CanFaultConfinement : ((canMode .integrating 0).dev.ctl 0).mode = .integrating ∧ ((canMode .recovering 0).dev.ctl 0).mode = .recovering ∧
    255 < (canMode .on 256).dev.get F.CAN_STAT_TEC 0 ∧ (canMode .on 256).dev.get F.CAN_STAT_STATE 0 < 2 ∧ ((canMode .on 0).dev.ctl 0).mode = .on ∧
    ((canMode .on 0).dev.put F.CAN_STAT_STATE 0 2).get F.CAN_STAT_STATE 0 = 2 ∧ up.dev.get F.CAN_STAT_STATE 0 = 3 ∧
    (canMode .on 0).dev.get (txSt 0) 0 = 3 ∧ (up.dev.ctl 0).mode = .off ∧ up.dev.clk.ticked = true ∧
    255 < (canMode .integrating 256).dev.get F.CAN_STAT_TEC 0 ∧ (canMode .integrating 256).dev.get F.CAN_STAT_STATE 0 ≠ 2 ∧
    (((canMode .on 0).dev.modCtl 0 fun u => { u with halting := true }).ctl 0).halting = true ∧ (canMode .on 0).dev.get F.CAN_STAT_TEC 0 ≤ 255 ∧
    ((canMode .on 0).dev.putB F.CAN_STAT_RECOV 0 true).flag F.CAN_STAT_RECOV 0 = true ∧
    (((canMode .on 0).dev.modCtl 0 fun u => { u with rxBusy := true }).ctl 0).rxBusy = true ∧
    (up.dev.putB F.CAN_CTL_EN 0 true).flag F.CAN_CTL_EN 0 = true := by decide +kernel

/-! ### Witnesses: warden, Conduit, TAP, the block as a whole -/

def argued (n : Nat) : State := with_ fun d => (d.setReg (F.WDN_MBARG.at_ 0) (BitVec.ofNat 40 n)).putB F.SNT_STAT_WINOK 0 true
/-- A service under way: two words, or a rollback bit. -/
def programming (own : Bool) (r : Option Roll) : State := with_ fun d => d.modWdn fun w =>
  { w with svc := some { code := 3, todo := [(0x200, 1), (0x201, 2)], roll := r, own := own } }
theorem witness_MailboxServices : up.dev.awake = true ∧ up.dev.get F.WDN_MBSTAT_STATE ≠ 1 ∧ up.dev.wdn.svc = none ∧
    (argued 0x3C0).dev.wordState (argued 0x3C0).otp 0x3C0 = .good ∧ (argued 0x200).dev.wordState (argued 0x200).otp 0x200 = .blank ∧
    (argued 0x200).dev.flag F.SNT_STAT_WINOK = true ∧ up.dev.flag F.SNT_STAT_WINOK = false ∧ up.dev.bit F.SNT_LOCK_LOCK 0 4 = false ∧
    (∀ i, i < 5 → (argued 15).dev.wordState (argued 15).otp (0x180 + 5 * 15 + i) = .blank) ∧ (∀ x ∈ [0x3C4, 0x3D9, 0x3EE], up.dev.wordState up.otp x = .blank) ∧
    up.dev.rollbackValue up.otp 0x380 = 0 ∧ (up.dev.rollWord up.otp 0x380).getLsbD 0 = false ∧
    (∃ i, i < 8 ∧ up.dev.wordState up.otp (0xE8 + i) ≠ .good) ∧ (programming true none).dev.wdn.svc ≠ none ∧ (0x100 : Nat) % 8 = 0 ∧ (up.dev.resetBarred 0 = true ∨ up.dev.resetBarred 0 = false) ∧ up.dev.gey.late = 0 := by
  decide +kernel
theorem witness_Programming : (programming false none).dev.wdn.svc = some { code := 3, todo := [(0x200, 1), (0x201, 2)] } ∧
    (programming false none).dev.sys.held = none ∧ (programming true (some { base := 0x380, bit := 0, left := 1 })).dev.wdn.svc.isSome = true ∧
    ({ (programming false none).dev with sys := { upDev.sys with held := some 5 } } : Dev).sys.held = some 5 ∧ up.dev.wdn.waiting = none ∧
    (programming false none).dev.awake = true ∧ (programming false none).dev.wardenUp = true ∧ (programming false none).dev.wdn.advWaits = false ∧
    (hotDev 1179).flag F.THM_STAT_VALID = true ∧ held.dev.awake = false ∧ held.dev.wardenUp = false ∧ (upDev.modWdn fun w => { w with waiting := some 7 }).wdn.waiting = some 7 := by
  decide +kernel
def reserved : State := with_ fun d => { (((d.putBit F.EVT_WRT 3 31 true).raise 127)) with
  con := { d.con with resv := [{ req := 10, banks := [14, 15], staged := [(1, 2), (1, 3)] }], wb := [32768] } }
/-- A reservation that holds its bank, and a far load that waits for its grant. -/
def holding : Dev := { upDev with con := { resv := [{ req := 11, held := [3], banks := [], staged := [(1, 2), (1, 3)], from_ := some 0 }] } }
def cutting : Dev := parkedDev.modRun 0 fun r => { r with far := [{ load := true, dest := 3, addr := 65536, value := 0 }] }
theorem witness_WardenAndReservations : reserved.dev.bit F.EVT_WRT (127 / 32) (127 % 32) = true ∧ reserved.dev.ev 127 = true ∧ up.dev.partner 7 ≠ some 8 ∧
    reserved.dev.resvOf 10 = some { req := 10, banks := [14, 15], staged := [(1, 2), (1, 3)] } ∧
    (reserved.dev.awaitBanks 10 reserved.dev.waits).resvOf 10 =
      some { req := 10, held := [14, 15], banks := [], staged := [(1, 2), (1, 3)], since := 2, from_ := some 0 } ∧
    ((reserved.dev.awaitBanks 10 1).resvOf 10).bind Resv.from_ = some 0 ∧ holding.jnl.banks ≠ [] ∧
    holding.resvOf 11 = some { req := 11, held := [3], banks := [], staged := [(1, 2), (1, 3)], from_ := some 0 } ∧ holding.awaitBanks 11 holding.waits = holding ∧
    reserved.dev.wardenUp = true ∧ (upDev.run 0).far = [] ∧ (cutting.run 0).far = [{ load := true, dest := 3, addr := 65536, value := 0 }] ∧
    (cutting.granted (bankOf 65536) fun r => r.req == 0).2 = some { farReq (.load 3) with at_ := some 1 } ∧ (cutting.run 0).faulted = false ∧
    (farDev.granted (bankOf 65536) fun r => r.req == 0).2 = none ∧ (cutting.eng 0).burst = none ∧ (bursts.untilWord 3 bursts.waits).2 = some 10 ∧
    ((bursts.untilWord 3 bursts.waits).1.eng 3).burst = some burst3 ∧ (upDev.modEng 0 fun u => { u with burst := some burst3 }).conHeld 15 = false ∧
    (windowServed.granted (bankOf 524287) fun r => r.req == 12).2.isSome = true ∧
    (ringAsked.granted (bankOf (ringAsked.dmaAddr 0)) fun r => r.req == 13).2.isSome = true ∧ reserved.dev.jnl.unwritten = [] ∧
    (reserved.dev.modJnl fun j => { j with unwritten := [(1, 2)] }).jnl.unwritten ≠ [] ∧
    (reserved.dev.con.wb.find? fun x => bankOf x == 1) = some 32768 ∧ up.dev.con.resv = [] ∧ up.dev.con.wb = [] ∧ up.dev.ev 127 = false := by decide +kernel
theorem witness_TestAccessPort : up.dev.vent.inReset = false ∧ up.dev.vent.scan = none ∧ up.dev.tap.instr = .idcode ∧
    ({ upDev with tap := { ir := TapInstr.opcode .extest, latch := 1 } } : Dev).tap.instr = .extest ∧ (1#91).getLsbD 0 = true ∧ (1#91).getLsbD 1 = false := by decide +kernel
theorem witness_FrontCommandRuns : ({ up with pending := [.refLate 7] } : State).pending = .refLate 7 :: [] ∧ up.pending = [] := ⟨rfl, rfl⟩
theorem witness_tablesOk : State.reset.tablesOk := ⟨rfl, by decide +kernel⟩
/-- The arming confirmation that raises axis 5, and a heartbeat that raises axis 7. -/
def confirming : State := { arming .conf with pending := [.armConf 5 7 9] }
theorem witness_VentAuthorityRises : (confirming.dev.vent.axis 5).st.rank < ((after (.armConf 5 7 9) confirming).vent.axis 5).st.rank ∧
    (beating.dev.vent.axis 7).st.rank < ((after (.ventHeartbeatRx true 0 0) beating).vent.axis 7).st.rank := by decide +kernel
theorem witness_steps : ∃ t, step confirming = .next t := ⟨_, rfl⟩
theorem witness_ProgrammedWordsStay : otpWord up.otp 0x3C0 = some 0x4C4F434B00#40 ∧ isRollback 0x3C0 = false ∧ isRollback 0x380 = true := by decide +kernel
theorem witness_EveryCommandRuns : Instr.wf (.adcSample 0 0 0 65535) = true ∧ Instr.wf .geyserTick = true ∧ Instr.wf (.brakeShortDetection 0 (2 ^ 40)) = true ∧
    Instr.wf (.canFrameRx 0 (oneByte 5 false)) = true ∧ Instr.wf (.canFrameRx 0 (badFrame true true 0)) = false :=
  ⟨by decide, by decide, by decide, by decide, by decide⟩
def entering : Dev := (upDev.setCst 7 .armed).modLink fun l => { l with acked := 128 }
theorem witness_RunEntry : entering.cst 7 = .armed ∧ entering.link.acked.testBit 7 = true ∧ entering.cst 0 = .safe ∧ entering.vst 0 = .safe := by decide +kernel

/-! ### One step of some commands -/

/-- R420: the heartbeat raises the ARMED axis; R418: the confirmation arms the axis. -/
theorem test_heartbeat_run : ((after (.ventHeartbeatRx true 0 0) beating).vent.axis 7).st = .run := by decide +kernel
theorem test_arm_conf : ((after (.armConf 5 7 9) confirming).vent.axis 5).st = .armed ∧ ((after (.armConf 5 7 8) confirming).vent.axis 5).st = .safe := by decide +kernel
/-- R69: the valid table is accepted, the empty one misses its slots (REASON 3). -/
theorem test_commit : (after .commitValidationDone { timed with dev := timed.dev.modGey fun g => { g with commit := some { validated := false, deferred := false, ticksLeft := 1 } } }).get
      F.GEY_CSTAT_STATE = 1 ∧ (after .commitValidationDone (committing false)).get F.GEY_CSTAT_STATE = 4 := by decide +kernel
/-- R346: a frame sent lowers TEC and leaves DONE and OK. -/
theorem test_can_done : (after (.canTxDone 0 {}) (canDev 0 3)).get (txAll 1) 0 = 12 := by decide +kernel

end Sys2Proof.Tests
end

section
/-! SUPPORT. The forms of engine instructions: what each kind of result leaves unchanged, and that an instruction of
that form retires with it (R202 to R207). -/

namespace Sys2Proof.Machine

/-! ### Frames of the result forms -/

theorem EngRun.wrapAdd_W_ne (r : EngRun) (dn j : Nat) (x : Int) (c : Bool) (hj : j ≠ dn) :
    (r.wrapAdd dn x c).W j = r.W j := by
  simp [EngRun.wrapAdd, EngRun.W_setW, hj]

theorem EngRun.satResult_W_ne (r : EngRun) (dn j : Nat) (x : Int × Bool) (c : Bool) (hj : j ≠ dn) :
    (r.satResult dn x c).W j = r.W j := by
  simp [EngRun.satResult, EngRun.W_setW, hj]

theorem EngRun.plainResult_W_ne (r : EngRun) (dn j : Nat) (v : Word) (c : Bool) (hj : j ≠ dn) :
    (r.plainResult dn v c).W j = r.W j := by
  simp [EngRun.plainResult, EngRun.W_setW, hj]

theorem EngRun.wrapAdd_flag_of_notMem (r : EngRun) (dn j : Nat) (x : Int) (c : Bool) (hj : j ∉ [fZ, fN, fC, fV]) :
    (r.wrapAdd dn x c).flag j = r.flag j := by
  simp only [List.mem_cons, List.not_mem_nil, or_false, not_or] at hj
  obtain ⟨hz, hn, hc, hv⟩ := hj
  simp [EngRun.wrapAdd, EngRun.flag_setFlag _ _ _ _ fV_lt, EngRun.flag_setFlag _ _ _ _ fC_lt, EngRun.flag_zn, hz, hn,
    hc, hv]

theorem EngRun.satResult_flag_of_notMem (r : EngRun) (dn j : Nat) (x : Int × Bool) (c : Bool)
    (hj : j ∉ [fZ, fN, fC, fV, fSat]) : (r.satResult dn x c).flag j = r.flag j := by
  simp only [List.mem_cons, List.not_mem_nil, or_false, not_or] at hj
  obtain ⟨hz, hn, hc, hv, hs⟩ := hj
  simp [EngRun.satResult, EngRun.flag_vs, EngRun.flag_setFlag _ _ _ _ fC_lt, EngRun.flag_zn, hz, hn, hc, hv, hs]

theorem EngRun.plainResult_flag_of_notMem (r : EngRun) (dn j : Nat) (v : Word) (c : Bool) (hj : j ∉ [fZ, fN, fC, fV]) :
    (r.plainResult dn v c).flag j = r.flag j := by
  simp only [List.mem_cons, List.not_mem_nil, or_false, not_or] at hj
  obtain ⟨hz, hn, hc, hv⟩ := hj
  simp [EngRun.plainResult, EngRun.flag_setFlag _ _ _ _ fV_lt, EngRun.flag_setFlag _ _ _ _ fC_lt, EngRun.flag_zn, hz,
    hn, hc, hv]

/-! ### Retirement of the result forms -/

section Forms

variable {s : State} {c : Instr} {op : Nat} {i : Issue} {srcs : List Nat} {n : Nat}

/-- A fact that follows from a retired instruction's results at the present run may stand in their place. -/
theorem Retires.imp_run {ws fs zs ps : List Nat} {res res' : EngRun → EngRun → Prop}
    (h : Retires s c i srcs ws fs zs ps n res) (hr : ∀ b, res (s.dev.run i.eng) b → res' (s.dev.run i.eng) b) :
    Retires s c i srcs ws fs zs ps n res' := by
  intro hf
  obtain ⟨d, hx, hstep, hseq, hres⟩ := h hf
  exact ⟨d, hx, hstep, hseq, hr _ hres⟩

/-- A fact that follows from a retired instruction's results at every run may stand in their place. -/
theorem Retires.imp {ws fs zs ps : List Nat} {res res' : EngRun → EngRun → Prop}
    (h : Retires s c i srcs ws fs zs ps n res) (hr : ∀ a b, res a b → res' a b) :
    Retires s c i srcs ws fs zs ps n res' := h.imp_run (hr _)

/-- An instruction with a wrapping result retires with it (R216). -/
theorem retires_wrapAdd (x : (Nat → Word) → Int) (cy : (Nat → Word) → Bool) (h : Ready s.dev i srcs)
    (hop : opcodeOf c = op) (hlegal : fieldsOk op i = true)
    (hc : exec c s = .next { s with dev := (s.dev.alu op i srcs n fun r => r.wrapAdd i.dn (x r.W) (cy r.W)).settle }) :
    Retires s c i srcs [i.dn] [fZ, fN, fC, fV] [] [] n (fun a b =>
      b.holdsZN i.dn (wordI (x a.W)) ∧ b.holdsCV (cy a.W) (wraps40 (x a.W))) := by
  refine retires_alu _ h hop hlegal hc (fun _ => rfl) (fun r j hj => ?_) (fun r j _ hj => ?_)
    (fun _ _ _ _ => by simp [EngRun.wrapAdd]) (fun _ _ _ => by simp [EngRun.wrapAdd]) (fun r r0 hW _ _ _ _ _ => ?_)
  · exact r.wrapAdd_W_ne _ _ _ _ (List.ne_of_not_mem_cons hj)
  · exact r.wrapAdd_flag_of_notMem _ _ _ _ hj
  · simpa [funext hW] using r0.wrapAdd_holds i.dn (x r0.W) (cy r0.W)

/-- An instruction with a clamped result retires with it (R217). -/
theorem retires_satResult (x : (Nat → Word) → (Nat → BitVec 88) → Int × Bool) (cy : (Nat → Word) → Bool)
    (h : Ready s.dev i srcs) (hop : opcodeOf c = op) (hlegal : fieldsOk op i = true)
    (hc : exec c s = .next { s with dev := (s.dev.alu op i srcs n fun r =>
      r.satResult i.dn (x r.W r.Z) (cy r.W)).settle }) :
    Retires s c i srcs [i.dn] [fZ, fN, fC, fV, fSat] [] [] n (fun a b =>
      b.holdsZN i.dn (wordI (x a.W a.Z).1) ∧ b.flag fC = cy a.W ∧ b.clampedVs a (x a.W a.Z).2) := by
  refine retires_alu _ h hop hlegal hc (fun r => by simp [EngRun.satResult]) (fun r j hj => ?_) (fun r j _ hj => ?_)
    (fun r j _ _ => by simp [EngRun.satResult]) (fun r j _ => by simp [EngRun.satResult]) (fun r r0 hW hF hZ _ _ _ => ?_)
  · exact r.satResult_W_ne _ _ _ _ (List.ne_of_not_mem_cons hj)
  · exact r.satResult_flag_of_notMem _ _ _ _ hj
  · simpa [funext hW, funext hZ, EngRun.clampedVs, hF] using r0.satResult_holds i.dn (x r0.W r0.Z) (cy r0.W)

/-- An instruction that narrows an exact value to P32 retires with it, V and SAT saying whether it clamped (R217). -/
theorem retires_sat (x : (Nat → Word) → (Nat → BitVec 88) → Int) (cy : (Nat → Word) → Bool)
    (h : Ready s.dev i srcs) (hop : opcodeOf c = op) (hlegal : fieldsOk op i = true)
    (hc : exec c s = .next { s with dev := (s.dev.alu op i srcs n fun r =>
      r.satResult i.dn (sat (x r.W r.Z)) (cy r.W)).settle }) :
    Retires s c i srcs [i.dn] [fZ, fN, fC, fV, fSat] [] [] n (fun a b =>
      b.holdsZN i.dn (satWord (x a.W a.Z)) ∧ b.flag fC = cy a.W ∧ b.clampedVs a (outP32 (x a.W a.Z))) := by
  refine (retires_satResult (fun w z => sat (x w z)) cy h hop hlegal hc).imp fun a b hb => ?_
  rw [satWord, ← satP32_eq]
  exact hb

/-- An instruction with a result that leaves V at 0 retires with it. -/
theorem retires_plainResult (v : (Nat → Word) → Word) (cy : (Nat → Word) → Bool) (h : Ready s.dev i srcs)
    (hop : opcodeOf c = op) (hlegal : fieldsOk op i = true)
    (hc : exec c s = .next { s with dev := (s.dev.alu op i srcs n fun r => r.plainResult i.dn (v r.W) (cy r.W)).settle }) :
    Retires s c i srcs [i.dn] [fZ, fN, fC, fV] [] [] n (fun a b =>
      b.holdsZN i.dn (v a.W) ∧ b.holdsCV (cy a.W) false) := by
  refine retires_alu _ h hop hlegal hc (fun _ => rfl) (fun r j hj => ?_) (fun r j _ hj => ?_)
    (fun _ _ _ _ => by simp [EngRun.plainResult]) (fun _ _ _ => by simp [EngRun.plainResult]) (fun r r0 hW _ _ _ _ _ => ?_)
  · exact r.plainResult_W_ne _ _ _ _ (List.ne_of_not_mem_cons hj)
  · exact r.plainResult_flag_of_notMem _ _ _ _ hj
  · simpa [funext hW] using r0.plainResult_holds i.dn (v r0.W) (cy r0.W)

/-- An issue whose fields or operands break a rule of its instruction ends the run with cause OPCODE (R202). -/
theorem endsOpcode_of_illegal {also : Bool} {body : Dev → Dev} (h : Ready s.dev i srcs) (hop : opcodeOf c = op)
    (hc : exec c s = .next { s with dev := (s.dev.issueRaw op i also srcs n body).settle })
    (hf : (fieldsOk op i && also) = false) : EndsOpcode s c i srcs := by
  rintro ⟨hword, ht⟩
  rw [hc, Dev.issueRaw_illegal h n body (hop ▸ hword) ht hf]

/-- The same for an instruction that works on its run alone. -/
theorem endsOpcode_alu {f : EngRun → EngRun} (h : Ready s.dev i srcs) (hop : opcodeOf c = op)
    (hc : exec c s = .next { s with dev := (s.dev.alu op i srcs n f).settle }) (hf : fieldsOk op i = false) :
    EndsOpcode s c i srcs := by
  rw [Dev.alu, Dev.issue] at hc
  exact endsOpcode_of_illegal h hop hc (by rw [hf, Bool.false_and])

end Forms

end Sys2Proof.Machine
end

section
namespace Sys2Proof.Machine

/-! ### Words of exact values -/

/-- The word of a value within the signed 40-bit range reads as that value. -/
theorem toInt_wordI {x : Int} (hlo : -(2 ^ 39) ≤ x) (hhi : x < 2 ^ 39) : (wordI x).toInt = x := by
  rw [wordI, BitVec.toInt_ofInt]
  exact Int.bmod_eq_of_le (by omega) (by omega)

/-- Wd of a sum is the wrapping sum (R216). -/
theorem wordI_toInt_add (a b : Word) : wordI (a.toInt + b.toInt) = a + b := by
  rw [wordI, BitVec.ofInt_add, BitVec.ofInt_toInt, BitVec.ofInt_toInt]

/-- Wd of a difference is the wrapping difference (R216). -/
theorem wordI_toInt_sub (a b : Word) : wordI (a.toInt - b.toInt) = a - b := by
  rw [wordI, sub_eq_add_neg, BitVec.ofInt_add, BitVec.ofInt_neg, BitVec.ofInt_toInt, BitVec.ofInt_toInt,
    BitVec.sub_eq_add_neg]

/-- Wd of ADDI is the wrapping sum with the sign-extended immediate (R216). -/
theorem wordI_toInt_add_imm (a : Word) (x : BitVec 22) : wordI (a.toInt + x.toInt) = a + x.signExtend 40 := by
  rw [wordI, BitVec.ofInt_add, BitVec.ofInt_toInt, BitVec.signExtend]

/-- A signed word lies in the signed 40-bit range. -/
theorem EngRun.WI_range (r : EngRun) (n : Nat) : -(2 ^ 39) ≤ r.WI n ∧ r.WI n < 2 ^ 39 :=
  ⟨(r.W n).le_toInt, (r.W n).toInt_lt⟩

/-- Settles O1: each of the three has the form of a wrapping result, whose word is the sum or difference modulo 2^40. -/
theorem integerInstructionsWrap : Obligations.IntegerInstructionsWrap := by
  unfold Obligations.IntegerInstructionsWrap
  refine fun s i => ⟨fun h hx => ⟨?_, ?_⟩, fun h hb => ?_⟩
  · refine (retires_wrapAdd (op := 0x14) (fun w => (w i.an).toInt + (w i.bn).toInt) (fun w => carryOf (w i.an) (w i.bn))
      h rfl (Issue.xLow_zero hx) rfl).imp fun a b hres => ?_
    exact wordI_toInt_add (a.W i.an) (a.W i.bn) ▸ hres
  · refine (retires_wrapAdd (op := 0x15) (fun w => (w i.an).toInt - (w i.bn).toInt)
      (fun w => decide ((w i.an).toNat < (w i.bn).toNat)) h rfl (Issue.xLow_zero hx) rfl).imp fun a b hres => ?_
    exact wordI_toInt_sub (a.W i.an) (a.W i.bn) ▸ hres
  · refine (retires_wrapAdd (op := 0x16) (fun w => (w i.an).toInt + i.ximm) (fun w => carryOf (w i.an) (wordI i.ximm))
      h rfl (Issue.noB_zero hb) rfl).imp fun a b hres => ?_
    exact wordI_toInt_add_imm (a.W i.an) i.x ▸ hres

end Sys2Proof.Machine
end

section
/-! SUPPORT. Comparing and saturating instructions (R217). -/

namespace Sys2Proof.Machine

/-- A value clamped to a limit that is a word lies in the signed 40-bit range. -/
theorem clampI_range {l : Int} (x : Int) (h0 : 0 ≤ l) (hl : l < 2 ^ 39) :
    -(2 ^ 39) ≤ clampI (-l) l x ∧ clampI (-l) l x < 2 ^ 39 := by
  unfold clampI; split <;> [omega; (split <;> omega)]

theorem clampI_eq {lo hi x : Int} (h : lo ≤ hi) : clampI lo hi x = max lo (min hi x) := by
  unfold clampI; split <;> [omega; (split <;> omega)]

/-- A clamp changes a value exactly where it lies outside the limits. -/
theorem clampI_bne (lo hi x : Int) : (clampI lo hi x != x) = decide (x < lo ∨ hi < x) := by
  rw [Bool.eq_iff_iff, bne_iff_ne, decide_eq_true_iff]
  unfold clampI; split <;> [omega; (split <;> omega)]

/-- A word as the limit of a symmetric clamp. -/
theorem EngRun.WI_max_zero_range (r : EngRun) (n : Nat) : 0 ≤ max (r.WI n) 0 ∧ max (r.WI n) 0 < 2 ^ 39 := by
  have := r.WI_range n; omega

/-- What CLAMP computes of Wa and Wb, with whether it clamps (R217). -/
def clampOperands (a b : Nat) (w : Nat → Word) (_ : Nat → BitVec 88) : Int × Bool :=
  let x := clampI (-max (w b).toInt 0) (max (w b).toInt 0) (w a).toInt
  (x, x != (w a).toInt)

section CompareForms

variable {s : State} {i : Issue}

/-- MIN (R217). -/
theorem retires_min (h : Ready s.dev i [i.an, i.bn]) (hx : i.x = 0) :
    Retires s (.min_ i) i [i.an, i.bn] [i.dn] [fZ, fN, fC, fV] [] [] 1 (fun a b =>
       b.holdsZN i.dn (b.W i.dn) ∧ (b.W i.dn).toInt = min (a.WI i.an) (a.WI i.bn) ∧ b.holdsCV false false) := by
  refine (retires_plainResult (op := 0x1B)
    (fun w => if (w i.an).toInt ≤ (w i.bn).toInt then w i.an else w i.bn) (fun _ => false)
    h rfl (Issue.xLow_zero hx) rfl).imp fun a b ⟨hzn, hcv⟩ => ?_
  have hw := hzn.1
  refine ⟨hw ▸ hzn, ?_, hcv⟩
  rw [hw, apply_ite BitVec.toInt]
  exact (min_def _ _).symm

/-- MAX (R217). -/
theorem retires_max (h : Ready s.dev i [i.an, i.bn]) (hx : i.x = 0) :
    Retires s (.max_ i) i [i.an, i.bn] [i.dn] [fZ, fN, fC, fV] [] [] 1 (fun a b =>
       b.holdsZN i.dn (b.W i.dn) ∧ (b.W i.dn).toInt = max (a.WI i.an) (a.WI i.bn) ∧ b.holdsCV false false) := by
  refine (retires_plainResult (op := 0x1C)
    (fun w => if (w i.bn).toInt ≤ (w i.an).toInt then w i.an else w i.bn) (fun _ => false)
    h rfl (Issue.xLow_zero hx) rfl).imp fun a b ⟨hzn, hcv⟩ => ?_
  have hw := hzn.1
  refine ⟨hw ▸ hzn, ?_, hcv⟩
  rw [hw, apply_ite BitVec.toInt, max_comm]
  exact (max_def _ _).symm

/-- CLAMP (R217). -/
theorem retires_clamp (h : Ready s.dev i [i.an, i.bn]) (hx : i.x = 0) :
    Retires s (.clamp i) i [i.an, i.bn] [i.dn] [fZ, fN, fC, fV, fSat] [] [] 1 (fun a b =>
       let l := max (a.WI i.bn) 0
       b.holdsZN i.dn (b.W i.dn) ∧ (b.W i.dn).toInt = max (-l) (min l (a.WI i.an)) ∧ b.flag fC = false ∧
         b.clampedVs a (decide (a.WI i.an < -l ∨ l < a.WI i.an))) := by
  refine (retires_satResult (op := 0x1D) (clampOperands i.an i.bn) (fun _ => false)
    h rfl (Issue.xLow_zero hx) rfl).imp fun a b ⟨hzn, hc, hvs⟩ => ?_
  obtain ⟨h0, hl⟩ := a.WI_max_zero_range i.bn
  have hle : -max (a.WI i.bn) 0 ≤ max (a.WI i.bn) 0 := by omega
  have hw := hzn.1
  refine ⟨hw ▸ hzn, ?_, hc, clampI_bne _ _ _ ▸ hvs⟩
  obtain ⟨hlo, hhi⟩ := clampI_range (a.WI i.an) h0 hl
  rw [hw]
  exact (toInt_wordI hlo hhi).trans (clampI_eq hle)

/-- CMP writes flags alone (R217). -/
theorem retires_cmp (h : Ready s.dev i [i.an, i.bn]) (hx : i.x = 0) (hd : i.d = 0) :
    Retires s (.cmp i) i [i.an, i.bn] [] [fZ, fN, fC, fV] [] [] 1 (fun a b =>
      b.flag fZ = decide (a.W i.an = a.W i.bn) ∧ b.flag fN = decide (a.WI i.an < a.WI i.bn) ∧
      b.holdsCV (decide ((a.W i.an).toNat < (a.W i.bn).toNat)) false) := by
  refine retires_alu (op := 0x1E) _ h rfl (by simp [fieldsOk, Issue.noD_zero hd, Issue.xLow_zero hx]) rfl (fun _ => by simp)
    (fun _ _ _ => by simp) (fun r j _ hj => ?_) (fun _ _ _ _ => by simp) (fun _ _ _ => by simp)
    (fun r r0 hW _ _ _ _ _ => ?_)
  · simp only [List.mem_cons, List.not_mem_nil, or_false, not_or] at hj
    obtain ⟨hz, hn, hc, hv⟩ := hj
    simp [EngRun.flag_setFlag, fZ_lt, fN_lt, fC_lt, fV_lt, hz, hn, hc, hv]
  · simp only [EngRun.next_flag, EngRun.holdsCV, EngRun.flag_setFlag _ _ _ _ fZ_lt,
      EngRun.flag_setFlag _ _ _ _ fN_lt, EngRun.flag_setFlag _ _ _ _ fC_lt, EngRun.flag_setFlag _ _ _ _ fV_lt,
      EngRun.WI, hW]
    exact ⟨rfl, rfl, rfl, rfl⟩

end CompareForms

/-- Settles O2: the comparing instructions by their own lemmas, the saturating ones as one form. -/
theorem compareAndSaturate : Obligations.CompareAndSaturate := by
  unfold Obligations.CompareAndSaturate
  refine ⟨fun s i h hx => ⟨retires_min h hx, retires_max h hx, retires_clamp h hx, retires_cmp h hx⟩,
    fun s i => ⟨fun h hx => ⟨?adds, ?subs⟩, fun h hx hb => ⟨?negs, ?satp⟩⟩⟩
  case adds =>
    exact retires_sat (op := 0x17) (fun w _ => (w i.an).toInt + (w i.bn).toInt) (fun w => carryOf (w i.an) (w i.bn))
      h rfl (Issue.xLow_zero hx) rfl
  case subs =>
    exact retires_sat (op := 0x18) (fun w _ => (w i.an).toInt - (w i.bn).toInt)
      (fun w => decide ((w i.an).toNat < (w i.bn).toNat)) h rfl (Issue.xLow_zero hx) rfl
  case negs =>
    exact retires_sat (op := 0x19) (fun w _ => -(w i.an).toInt) (fun _ => false) h rfl
      (by simp [fieldsOk, Issue.noB_zero hb, Issue.xLow_zero hx]) rfl
  case satp =>
    exact retires_sat (op := 0x1A) (fun w _ => (w i.an).toInt) (fun _ => false) h rfl
      (by simp [fieldsOk, Issue.noB_zero hb, Issue.xLow_zero hx]) rfl

end Sys2Proof.Machine
end

section
/-! SUPPORT. Multiplication, the wide accumulators and division (R218, R221). -/

namespace Sys2Proof.Machine

/-- Rounding at bit 31 (R218). -/
theorem rnd_31 (x : Int) : rnd x 31 = (x + 2 ^ 30) / 2 ^ 31 := by norm_num [rnd, floorDiv]

/-- An 88-bit word of a value in its range reads as that value. -/
theorem toInt_ofInt_88 {x : Int} (hlo : -(2 ^ 87) ≤ x) (hhi : x < 2 ^ 87) : (BitVec.ofInt 88 x).toInt = x := by
  rw [BitVec.toInt_ofInt]
  exact Int.bmod_eq_of_le (by omega) (by omega)

/-- A product of two signed words needs no more than 80 bits (R218). -/
theorem EngRun.abs_mul_WI_le (r : EngRun) (m n : Nat) : |r.WI m * r.WI n| ≤ 2 ^ 39 * 2 ^ 39 := by
  have hm := r.WI_range m
  have hn := r.WI_range n
  rw [abs_mul]
  exact mul_le_mul (abs_le.mpr ⟨hm.1, hm.2.le⟩) (abs_le.mpr ⟨hn.1, hn.2.le⟩) (abs_nonneg _) (by norm_num)

/-- The product of MUL and MAC, negated where X[0] is 1. -/
theorem EngRun.product_eq (r : EngRun) {i : Issue} {neg : Bool} (hx : i.x = if neg then 1 else 0) :
    r.product i = if neg then -(r.WI i.an * r.WI i.bn) else r.WI i.an * r.WI i.bn := by
  cases neg <;> simp [EngRun.product, Issue.xn, hx]

/-- The product fits into an accumulator. -/
theorem EngRun.product_range (r : EngRun) (i : Issue) : -(2 ^ 87) ≤ r.product i ∧ r.product i < 2 ^ 87 := by
  obtain ⟨h1, h2⟩ := abs_le.mp (r.abs_mul_WI_le i.an i.bn)
  unfold EngRun.product
  simp only []
  split <;> omega

section Forms

variable {s : State} {c : Instr} {op : Nat} {i : Issue} {srcs : List Nat} {n : Nat}

/-- An instruction that writes accumulator `k` alone retires with it. -/
theorem retires_setZ (k : Nat) (z : (Nat → Word) → (Nat → BitVec 88) → BitVec 88) (h : Ready s.dev i srcs)
    (hop : opcodeOf c = op) (hlegal : fieldsOk op i = true) (hk : k < 2)
    (hc : exec c s = .next { s with dev := (s.dev.alu op i srcs n fun r => r.setZ k (z r.W r.Z)).settle }) :
    Retires s c i srcs [] [] [k] [] n (fun a b => b.Z k = z a.W a.Z) := by
  refine retires_alu _ h hop hlegal hc (fun _ => by simp) (fun _ _ _ => by simp) (fun _ _ _ _ => by simp)
    (fun r j h2 hj => ?_) (fun _ _ _ => by simp) (fun r r0 hW _ hZ _ _ _ => ?_)
  · simp [EngRun.Z_setZ _ _ _ _ hk h2, List.ne_of_not_mem_cons hj]
  · simp [EngRun.Z_setZ _ _ _ _ hk hk, funext hW, funext hZ]

/-- An instruction that writes an accumulator and V retires with both (R218). -/
theorem retires_acc (z : (Nat → Word) → (Nat → BitVec 88) → BitVec 88)
    (v : (Nat → Word) → (Nat → BitVec 88) → Bool)
    (h : Ready s.dev i srcs) (hop : opcodeOf c = op) (hlegal : fieldsOk op i = true) (hd : i.dn < 2)
    (hc : exec c s = .next { s with dev := (s.dev.alu op i srcs n fun r =>
      (r.setZ i.dn (z r.W r.Z)).setFlag fV (v r.W r.Z)).settle }) :
    Retires s c i srcs [] [fV] [i.dn] [] n (fun a b => b.Z i.dn = z a.W a.Z ∧ b.flag fV = v a.W a.Z) := by
  refine retires_alu _ h hop hlegal hc (fun _ => by simp) (fun _ _ _ => by simp) (fun r j _ hj => ?_) (fun r j h2 hj => ?_)
    (fun _ _ _ => by simp) (fun r r0 hW _ hZ _ _ _ => ?_)
  · simp [EngRun.flag_setFlag _ _ _ _ fV_lt, List.ne_of_not_mem_cons hj]
  · simp [EngRun.Z_setZ _ _ _ _ hd h2, List.ne_of_not_mem_cons hj]
  · simp [EngRun.Z_setZ _ _ _ _ hd hd, EngRun.flag_setFlag _ _ _ _ fV_lt, funext hW, funext hZ]

/-- MUL (R218). -/
theorem retires_mul {neg : Bool} (h : Ready s.dev i [i.an, i.bn]) (hd : i.dn < 2) (hx : i.x = if neg then 1 else 0) :
    Retires s (.mul i) i [i.an, i.bn] [] [fV] [i.dn] [] 1 (fun a b =>
      let p := a.WI i.an * a.WI i.bn
      (b.Z i.dn).toInt = (if neg then -p else p) ∧ b.flag fV = false) := by
  have hl : fieldsOk 0x21 i = true := by cases neg <;> simp [fieldsOk, hd, Issue.xLow, Issue.xn, hx]
  refine (retires_acc (op := 0x21) (fun w _ => BitVec.ofInt 88
    (if i.xn % 2 = 1 then -((w i.an).toInt * (w i.bn).toInt) else (w i.an).toInt * (w i.bn).toInt)) (fun _ _ => false)
    h rfl hl hd rfl).imp fun a b ⟨hz, hv⟩ => ⟨?_, hv⟩
  obtain ⟨hlo, hhi⟩ := a.product_range i
  calc (b.Z i.dn).toInt = (BitVec.ofInt 88 (a.product i)).toInt := by rw [hz]; rfl
    _ = a.product i := toInt_ofInt_88 hlo hhi
    _ = _ := a.product_eq hx

/-- MAC keeps the exact sum modulo 2^88, and V says that it needs more (R218). -/
theorem retires_mac {neg : Bool} (h : Ready s.dev i [i.an, i.bn]) (hd : i.dn < 2) (hx : i.x = if neg then 1 else 0) :
    Retires s (.mac i) i [i.an, i.bn] [] [fV] [i.dn] [] 1 (fun a b =>
      let p := a.WI i.an * a.WI i.bn
      let x := (a.Z i.dn).toInt + (if neg then -p else p)
      b.Z i.dn = BitVec.ofInt 88 x ∧ b.flag fV = decide (x < -(2 ^ 87) ∨ 2 ^ 87 ≤ x)) := by
  have hl : fieldsOk 0x22 i = true := by cases neg <;> simp [fieldsOk, hd, Issue.xLow, Issue.xn, hx]
  let x := fun (w : Nat → Word) (z : Nat → BitVec 88) => (z i.dn).toInt +
    if i.xn % 2 = 1 then -((w i.an).toInt * (w i.bn).toInt) else (w i.an).toInt * (w i.bn).toInt
  refine (retires_acc (op := 0x22) (fun w z => BitVec.ofInt 88 (x w z))
    (fun w z => decide (x w z < -(2 ^ 87) ∨ 2 ^ 87 ≤ x w z)) h rfl hl hd rfl).imp fun a b hb => ?_
  have hp : x a.W a.Z = (a.Z i.dn).toInt + if neg then -(a.WI i.an * a.WI i.bn) else a.WI i.an * a.WI i.bn := by
    rw [← a.product_eq hx]; rfl
  rwa [hp] at hb

/-- ZRD (R218). -/
theorem retires_zrd {sh : Nat} (hsh : sh < 16) (h : Ready s.dev i []) (ha : i.a.val < 2) (hb : i.b = 0)
    (hx : i.x = BitVec.ofNat 22 sh) :
    Retires s (.zrd i) i [] [i.dn] [fZ, fN, fC, fV, fSat] [] [] 1 (fun a b =>
      let x := ((a.Z i.an).toInt * 2 ^ sh + 2 ^ 30) / 2 ^ 31
      b.holdsZN i.dn (satWord x) ∧ b.flag fC = false ∧ b.clampedVs a (outP32 x)) := by
  have hxn : i.xn = sh := by rw [Issue.xn, hx, BitVec.toNat_ofNat, Nat.mod_eq_of_lt (by omega)]
  have hl : fieldsOk 0x23 i = true := by simp [fieldsOk, Issue.an, ha, Issue.noB_zero hb, Issue.xLow, hxn, hsh]
  refine (retires_sat (op := 0x23) (fun _ z => rnd ((z i.an).toInt * 2 ^ i.xn) 31) (fun _ => false) h rfl hl rfl).imp
    fun a b hres => ?_
  rwa [hxn, rnd_31] at hres

/-- ZLD (R218). -/
theorem retires_zld (h : Ready s.dev i [i.an]) (hd : i.dn < 2) (hb : i.b = 0) (hx : i.x = 0) :
    Retires s (.zld i) i [i.an] [] [] [i.dn] [] 1 (fun a b => (b.Z i.dn).toInt = a.WI i.an * 2 ^ 31) := by
  have hl : fieldsOk 0x24 i = true := by simp [fieldsOk, hd, Issue.noB_zero hb, Issue.xLow_zero hx]
  refine (retires_setZ (op := 0x24) i.dn (fun w _ => BitVec.ofInt 88 ((w i.an).toInt * 2 ^ 31)) h rfl hl hd rfl).imp
    fun a b hz => ?_
  obtain ⟨hlo, hhi⟩ := a.WI_range i.an
  rw [hz]
  exact toInt_ofInt_88 (x := a.WI i.an * 2 ^ 31) (by omega) (by omega)

/-- One step of restoring division gives words (R221). -/
theorem divStep_eq (r q n : Nat) :
    divStep r q n = (if n ≤ 2 * r % 2 ^ 40 then 2 * r % 2 ^ 40 - n else 2 * r % 2 ^ 40,
      if n ≤ 2 * r % 2 ^ 40 then 2 * q % 2 ^ 40 + 1 else 2 * q % 2 ^ 40,
      decide (n ≤ 2 * r % 2 ^ 40), decide (n ≤ r)) := by
  unfold divStep
  simp only []
  split
  · have : (2 * q % 2 ^ 40 + 1) % 2 ^ 40 = 2 * q % 2 ^ 40 + 1 := by omega
    simp_all
  · simp_all

/-- DIVSTEP (R221). -/
theorem retires_divstep (h : Ready s.dev i [i.dn, i.dn + 1, i.bn]) (hd : i.d.val % 2 = 0) (ha : i.a = 0) (hx : i.x = 0) :
    Retires s (.divstep i) i [i.dn, i.dn + 1, i.bn] [i.dn, i.dn + 1] [fC, fV] [] [] 1 (fun a b =>
       let r := (a.W i.dn).toNat
       let q := (a.W (i.dn + 1)).toNat
       let n := (a.W i.bn).toNat
       let r2 := 2 * r % 2 ^ 40
       let q2 := 2 * q % 2 ^ 40
       b.flag fV = decide (n ≤ r) ∧ b.flag fC = decide (n ≤ r2) ∧
       (b.W i.dn).toNat = (if n ≤ r2 then r2 - n else r2) ∧
       (b.W (i.dn + 1)).toNat = (if n ≤ r2 then q2 + 1 else q2)) := by
  have hl : fieldsOk 0x30 i = true := by
    simp [fieldsOk, Issue.evenD, Issue.dn, hd, Issue.noA_zero ha, Issue.xLow_zero hx]
  refine retires_alu (op := 0x30) _ h rfl hl rfl (fun _ => by simp) (fun r j hj => ?_) (fun r j _ hj => ?_)
    (fun _ _ _ _ => by simp) (fun _ _ _ => by simp) (fun r r0 hW _ _ _ _ _ => ?_)
  · simp only [List.mem_cons, List.not_mem_nil, or_false, not_or] at hj
    simp [EngRun.W_setW, hj]
  · simp only [List.mem_cons, List.not_mem_nil, or_false, not_or] at hj
    simp [EngRun.flag_setFlag _ _ _ _ fC_lt, EngRun.flag_setFlag _ _ _ _ fV_lt, hj]
  · simp only [EngRun.next_flag, EngRun.next_W, EngRun.flag_setFlag _ _ _ _ fC_lt, EngRun.flag_setFlag _ _ _ _ fV_lt,
      EngRun.setFlag_W, EngRun.W_setW, EngRun.setW_flag, hW, divStep_eq, wordN]
    refine ⟨by simp, by simp [fC, fV], ?_, ?_⟩
    · rw [if_neg (by omega)]; simp only [if_true]; rw [BitVec.toNat_ofNat]; split <;> omega
    · simp only [if_true]; rw [BitVec.toNat_ofNat]; split <;> omega

end Forms

/-- Settles O3: MULS and ZRD are saturating results, MUL and MAC write an accumulator with V, DIVSTEP a pair. -/
theorem multiplyAccumulateDivide : Obligations.MultiplyAccumulateDivide := by
  unfold Obligations.MultiplyAccumulateDivide
  refine ⟨fun s i => ⟨fun h hx => ?muls, fun neg h hd hx => ⟨retires_mul h hd hx, retires_mac h hd hx⟩,
    fun sh hsh h ha hb hx => retires_zrd hsh h ha hb hx, retires_zld⟩, fun s i => retires_divstep⟩
  case muls =>
    refine (retires_sat (op := 0x20) (fun w _ => fmul (w i.an).toInt (w i.bn).toInt) (fun _ => false) h rfl
      (Issue.xLow_zero hx) rfl).imp fun a b hres => ?_
    rwa [fmul, rnd_31] at hres

end Sys2Proof.Machine
end

section
/-! SUPPORT. Logic and shifts (R219, R220). -/

namespace Sys2Proof.Machine

/-! ### The second operand -/

/-- The low bits of X as a word: the immediate of AND, OR and XOR (R219). -/
theorem wordN_xn_mod (i : Issue) : wordN (i.xn % 2 ^ 21) = (i.x.extractLsb' 0 21).zeroExtend 40 := by
  apply BitVec.eq_of_toNat_eq
  have : i.x.toNat % 2 ^ 21 < 2 ^ 40 := by omega
  simp [wordN, Issue.xn, BitVec.toNat_setWidth]

theorem Issue.x21_zero {i : Issue} (h : i.x = 0) : i.x21 = false := by simp [Issue.x21, h]

theorem Issue.noB_ne_zero {i : Issue} (h : i.b ≠ 0) : i.noB = false :=
  beq_eq_false_iff_ne.mpr fun h0 => h (Fin.ext h0)

/-- X[20:6] and X[5:0] of a shift (R220). -/
theorem Issue.xn_split (i : Issue) :
    i.xn % 2 ^ 21 = (i.x.extractLsb' 6 15).toNat * 64 + (i.x.extractLsb' 0 6).toNat := by
  simp only [Issue.xn, BitVec.extractLsb'_toNat, Nat.shiftRight_eq_div_pow]
  omega

/-! ### Shifts as arithmetic -/

/-- SHL multiplies modulo 2^40; C is the last bit shifted out (R220). -/
theorem shlOf_eq (a : Word) (k : Nat) :
    shlOf a k = (BitVec.ofNat 40 (a.toNat * 2 ^ k), decide (1 ≤ k ∧ k ≤ 40) && a.getLsbD (40 - k)) := by
  unfold shlOf
  split
  next h0 => subst h0; simp
  next h0 =>
    split
    next hk =>
      refine Prod.ext ?_ (by simp [show 1 ≤ k ∧ k ≤ 40 by omega])
      apply BitVec.eq_of_toNat_eq
      simp [Nat.shiftLeft_eq]
    next hk =>
      refine Prod.ext ?_ ?_
      · obtain ⟨m, rfl⟩ : ∃ m, k = 40 + m := ⟨k - 40, by omega⟩
        apply BitVec.eq_of_toNat_eq
        rw [BitVec.toNat_ofNat, Nat.pow_add, Nat.mul_left_comm]
        simp
      · by_cases h40 : k = 40
        · simp [h40]
        · simp [h40, show ¬ k ≤ 40 by omega]

/-- SHR divides the unsigned value; C is the last bit shifted out (R220). -/
theorem shrOf_eq (a : Word) (k : Nat) :
    shrOf a k = (BitVec.ofNat 40 (a.toNat / 2 ^ k), decide (1 ≤ k ∧ k ≤ 40) && a.getLsbD (k - 1)) := by
  unfold shrOf
  split
  next h0 => subst h0; simp
  next h0 =>
    split
    next hk =>
      refine Prod.ext ?_ (by simp [show 1 ≤ k ∧ k ≤ 40 by omega])
      apply BitVec.eq_of_toNat_eq
      have : a.toNat / 2 ^ k ≤ a.toNat := Nat.div_le_self ..
      simp only [BitVec.toNat_ushiftRight, Nat.shiftRight_eq_div_pow, BitVec.toNat_ofNat]
      exact (Nat.mod_eq_of_lt (by omega)).symm
    next hk =>
      refine Prod.ext ?_ ?_
      · have : a.toNat / 2 ^ k = 0 :=
          Nat.div_eq_of_lt (a.isLt.trans_le (Nat.pow_le_pow_right (by norm_num) (by omega)))
        simp [this]
      · by_cases h40 : k = 40
        · simp [h40]
        · simp [h40, show ¬ k ≤ 40 by omega]

/-- A signed value shifted out to the right leaves its sign. -/
theorem toInt_div_two_pow_of_le (a : Word) {k : Nat} (hk : 40 ≤ k) :
    a.toInt / 2 ^ k = if a.getLsbD 39 then -1 else 0 := by
  have hp : (2 : Int) ^ 40 ≤ 2 ^ k := pow_le_pow_right₀ (by norm_num) hk
  have hlo := a.le_toInt
  have hhi := a.toInt_lt
  have hm : a.getLsbD 39 = decide (a.toInt < 0) := by rw [← BitVec.msb_eq_toInt]; rfl
  rw [hm]
  by_cases h : a.toInt < 0
  · rw [if_pos (by simpa using h)]
    exact Int.ediv_eq_neg_one_of_neg_of_le h (by omega)
  · rw [if_neg (by simpa using h)]
    exact Int.ediv_eq_zero_of_lt (by omega) (by omega)

/-- SAR divides the signed value, rounding down; C is the last bit shifted out, at the end the sign (R220). -/
theorem sarOf_eq (a : Word) (k : Nat) :
    sarOf a k = (BitVec.ofInt 40 (a.toInt / 2 ^ k), decide (1 ≤ k) && a.getLsbD (min (k - 1) 39)) := by
  unfold sarOf
  split
  next h0 => subst h0; simp
  next h0 =>
    split
    next hk =>
      refine Prod.ext ?_ (by simp [show 1 ≤ k by omega, show min (k - 1) 39 = k - 1 by omega])
      simp [BitVec.sshiftRight, Int.shiftRight_eq_div_pow]
    next hk =>
      refine Prod.ext ?_ (by simp [show 1 ≤ k by omega, show min (k - 1) 39 = 39 by omega])
      rw [toInt_div_two_pow_of_le a (by omega)]
      split <;> rfl

/-! ### Retirement of the two forms -/

section Forms

variable {s : State} {c : Instr} {op : Nat} {i : Issue} {srcs : List Nat}

/-- A logic instruction with a register as its second operand (R219). -/
theorem retires_logic (f : Word → Word → Word) (h : Ready s.dev i [i.an, i.bn]) (hop : opcodeOf c = op)
    (hl : fieldsOk op i = i.logicOk) (hx : i.x = 0)
    (hc : exec c s = .next { s with dev := (s.dev.logic op i f).settle }) :
    Retires s c i [i.an, i.bn] [i.dn] [fZ, fN, fC, fV] [] [] 1 (fun a b =>
      b.holdsZN i.dn (f (a.W i.an) (a.W i.bn)) ∧ b.holdsCV false false) := by
  have h21 := Issue.x21_zero hx
  refine retires_plainResult (fun w => f (w i.an) (w i.bn)) (fun _ => false) h hop ?_ ?_
  · rw [hl, Issue.logicOk, h21]; exact Issue.xLow_zero hx
  · rw [hc, Dev.logic, Issue.secondSrc, h21]
    simp only [EngRun.logicArg, h21, Bool.false_eq_true, if_false]

/-- A logic instruction with an immediate (R219). -/
theorem retires_logic_imm (f : Word → Word → Word) (h : Ready s.dev i [i.an]) (hop : opcodeOf c = op)
    (hl : fieldsOk op i = i.logicOk) (h21 : i.x21 = true) (hb : i.b = 0)
    (hc : exec c s = .next { s with dev := (s.dev.logic op i f).settle }) :
    Retires s c i [i.an] [i.dn] [fZ, fN, fC, fV] [] [] 1 (fun a b =>
      b.holdsZN i.dn (f (a.W i.an) ((i.x.extractLsb' 0 21).zeroExtend 40)) ∧ b.holdsCV false false) := by
  refine retires_plainResult (fun w => f (w i.an) ((i.x.extractLsb' 0 21).zeroExtend 40)) (fun _ => false) h hop ?_ ?_
  · rw [hl, Issue.logicOk, h21]; exact Issue.noB_zero hb
  · rw [hc, Dev.logic, Issue.secondSrc, h21]
    simp only [EngRun.logicArg, h21, if_true, wordN_xn_mod]

/-- An immediate with a register named beside it is illegal (R219). -/
theorem endsOpcode_logic (f : Word → Word → Word) (h : Ready s.dev i [i.an]) (hop : opcodeOf c = op)
    (hl : fieldsOk op i = i.logicOk) (h21 : i.x21 = true) (hb : i.b ≠ 0)
    (hc : exec c s = .next { s with dev := (s.dev.logic op i f).settle }) : EndsOpcode s c i [i.an] := by
  rw [Dev.logic, Issue.secondSrc, h21] at hc
  refine endsOpcode_alu h hop hc ?_
  rw [hl, Issue.logicOk, h21]; exact Issue.noB_ne_zero hb

/-- The forms of a shift by `k`: the count in a register, or in X (R220). -/
def shiftForm (s : State) (i : Issue) (k : Nat) (srcs : List Nat) : Prop :=
  srcs = [i.an, i.bn] ∧ i.x = 0 ∧ ((s.dev.run i.eng).W i.bn).toNat % 64 = k ∨
    srcs = [i.an] ∧ i.b = 0 ∧ i.x.getLsbD 21 = true ∧ i.x.extractLsb' 6 15 = 0 ∧ (i.x.extractLsb' 0 6).toNat = k

/-- A shift retires with its count taken from a register or from X (R220). -/
theorem retires_shift (f : Word → Nat → Word × Bool) {k : Nat} (h : Ready s.dev i srcs) (hform : shiftForm s i k srcs)
    (hop : opcodeOf c = op) (hl : fieldsOk op i = i.shiftOk)
    (hc : exec c s = .next { s with dev := (s.dev.shift op i f).settle }) :
    Retires s c i srcs [i.dn] [fZ, fN, fC, fV] [] [] 1 (fun a b =>
      b.holdsZN i.dn (f (a.W i.an) k).1 ∧ b.holdsCV (f (a.W i.an) k).2 false) := by
  rcases hform with ⟨rfl, hx, hk⟩ | ⟨rfl, hb, h21, hhi, hk⟩
  · have h21 := Issue.x21_zero hx
    refine (retires_plainResult (fun w => (f (w i.an) ((w i.bn).toNat % 64)).1)
      (fun w => (f (w i.an) ((w i.bn).toNat % 64)).2) h hop ?_ ?_).imp_run fun b hres => by rwa [hk] at hres
    · rw [hl, Issue.shiftOk, h21]; exact Issue.xLow_zero hx
    · rw [hc, Dev.shift, Issue.secondSrc, h21]
      simp only [EngRun.shiftArg, h21, Bool.false_eq_true, if_false]
  · have h21 : i.x21 = true := h21
    have hlow : i.xn % 2 ^ 21 = k := by rw [Issue.xn_split i, hhi, hk]; simp
    have hk64 : k < 64 := hk ▸ (i.x.extractLsb' 0 6).isLt
    have h64 : i.xn % 64 = k := by omega
    refine retires_plainResult (fun w => (f (w i.an) k).1) (fun w => (f (w i.an) k).2) h hop ?_ ?_
    · rw [hl, Issue.shiftOk, h21, hlow]; simp [Issue.noB_zero hb, hk64]
    · rw [hc, Dev.shift, Issue.secondSrc, h21]
      simp only [EngRun.shiftArg, h21, if_true, h64]

/-- An immediate count above 63, or with a register named beside it, is illegal (R220). -/
theorem endsOpcode_shift (f : Word → Nat → Word × Bool) (h : Ready s.dev i [i.an]) (hop : opcodeOf c = op)
    (hl : fieldsOk op i = i.shiftOk) (h21 : i.x21 = true) (hb : i.b ≠ 0 ∨ i.x.extractLsb' 6 15 ≠ 0)
    (hc : exec c s = .next { s with dev := (s.dev.shift op i f).settle }) : EndsOpcode s c i [i.an] := by
  rw [Dev.shift, Issue.secondSrc, h21] at hc
  refine endsOpcode_alu h hop hc ?_
  rw [hl, Issue.shiftOk, h21, if_pos rfl, Bool.and_eq_false_iff]
  refine hb.imp Issue.noB_ne_zero fun hx => ?_
  have : (i.x.extractLsb' 6 15).toNat ≠ 0 := fun h0 => hx (BitVec.eq_of_toNat_eq h0)
  rw [Issue.xn_split i, decide_eq_false_iff_not]
  omega

end Forms

/-- Settles O4: the logic form with either second operand, and the shift form with the shifts as arithmetic. -/
theorem logicAndShifts : Obligations.LogicAndShifts := by
  unfold Obligations.LogicAndShifts
  refine ⟨fun s i => ⟨fun h hx => ?reg, fun h h21 hb => ?imm, fun h h21 hb => ?illegal⟩,
    fun s i => ⟨fun k srcs _ h hform => ⟨?shl, ?shr, ?sar⟩, fun h h21 hb => ?illegalShift⟩⟩
  case reg =>
    exact ⟨retires_logic (op := 0x28) _ h rfl rfl hx rfl, retires_logic (op := 0x29) _ h rfl rfl hx rfl,
      retires_logic (op := 0x2A) _ h rfl rfl hx rfl⟩
  case imm =>
    exact ⟨retires_logic_imm (op := 0x28) _ h rfl rfl h21 hb rfl, retires_logic_imm (op := 0x29) _ h rfl rfl h21 hb rfl,
      retires_logic_imm (op := 0x2A) _ h rfl rfl h21 hb rfl⟩
  case illegal =>
    exact ⟨endsOpcode_logic (op := 0x28) _ h rfl rfl h21 hb rfl, endsOpcode_logic (op := 0x29) _ h rfl rfl h21 hb rfl,
      endsOpcode_logic (op := 0x2A) _ h rfl rfl h21 hb rfl⟩
  case shl =>
    exact (retires_shift (op := 0x2B) shlOf h hform rfl rfl rfl).imp fun a b hres => by rwa [shlOf_eq] at hres
  case shr =>
    exact (retires_shift (op := 0x2C) shrOf h hform rfl rfl rfl).imp fun a b hres => by rwa [shrOf_eq] at hres
  case sar =>
    exact (retires_shift (op := 0x2D) sarOf h hform rfl rfl rfl).imp fun a b hres => by rwa [sarOf_eq] at hres
  case illegalShift =>
    exact ⟨endsOpcode_shift (op := 0x2B) _ h rfl rfl h21 hb rfl, endsOpcode_shift (op := 0x2C) _ h rfl rfl h21 hb rfl,
      endsOpcode_shift (op := 0x2D) _ h rfl rfl h21 hb rfl⟩

end Sys2Proof.Machine
end

section
/-! SUPPORT. Moves, immediates, pointers and special registers (R212, R213). -/

namespace Sys2Proof.Machine

/-! ### The values that the moves write -/

/-- LDIH replaces the upper 18 bits (R212). -/
theorem fput_high (w : Word) (imm : BitVec 18) : fput w 22 18 imm.toNat = imm ++ w.extractLsb' 0 22 := by
  apply BitVec.eq_of_getLsbD_eq
  intro j hj
  rw [getLsbD_fput w 22 18 _ j (by decide), BitVec.getLsbD_append]
  by_cases h : j < 22
  · rw [if_neg (by omega), if_pos h]; simp [h]
  · rw [if_pos (by omega), if_neg h]; rfl

/-- The high word of an accumulator is sign-extended through the guard bits (R213). -/
theorem zPut_high (z : BitVec 88) (w : Word) : zPut z true w = w.signExtend 48 ++ z.extractLsb' 0 40 := by
  apply BitVec.eq_of_getLsbD_eq
  intro j hj
  unfold zPut
  rw [if_pos rfl, BitVec.getLsbD_signExtend, BitVec.getLsbD_append, BitVec.getLsbD_append, BitVec.getLsbD_signExtend]
  by_cases h40 : j < 40
  · simp [h40, hj, show j < 80 by omega]
  · by_cases h80 : j < 80
    · simp [h40, h80, hj, show j - 40 < 40 by omega, show j - 40 < 48 by omega]
    · simp [h40, h80, hj, show ¬ j - 40 < 40 by omega, show j - 40 < 48 by omega]
      exact BitVec.msb_append

/-- PUTS to a pointer (R213). -/
theorem EngRun.putSpecial_ptr (r : EngRun) {k : Nat} (hk : k < 4) (w : Word) : r.putSpecial k w = r.setP k w.toNat := by
  unfold EngRun.putSpecial; rw [if_pos hk]

/-- PUTS to the low word of an accumulator (R213). -/
theorem EngRun.putSpecial_low (r : EngRun) {z : Nat} (hz : z < 2) (w : Word) :
    r.putSpecial (6 + 2 * z) w = r.setZ z ((r.Z z).extractLsb' 40 48 ++ w) := by
  obtain rfl | rfl : z = 0 ∨ z = 1 := by omega
  all_goals rfl

/-- PUTS to the high word of an accumulator (R213). -/
theorem EngRun.putSpecial_high (r : EngRun) {z : Nat} (hz : z < 2) (w : Word) :
    r.putSpecial (7 + 2 * z) w = r.setZ z (w.signExtend 48 ++ (r.Z z).extractLsb' 0 40) := by
  rw [← zPut_high]
  obtain rfl | rfl : z = 0 ∨ z = 1 := by omega
  all_goals rfl

/-- PUTS to the flag word writes Z, N, C and V from the word's low bits (R213). -/
theorem EngRun.flag_putSpecial_flags (r : EngRun) (w : Word) (j : Nat) :
    (r.putSpecial 5 w).flag j = if j < 4 then w.getLsbD j else r.flag j := by
  show (r.flags.extractLsb' 4 12 ++ w.extractLsb' 0 4).getLsbD j = _
  rw [BitVec.getLsbD_append]
  by_cases h : j < 4
  · simp [h]
  · by_cases h16 : j < 16
    · simp [h, EngRun.flag, show 4 + (j - 4) = j by omega, show j - 4 < 12 by omega]
    · simp [h, EngRun.flag, show ¬ j - 4 < 12 by omega, BitVec.getLsbD_of_ge _ _ (Nat.le_of_not_lt h16)]

/-- GETS of a pointer (R213). -/
theorem EngRun.special_ptr (r : EngRun) {sel : Nat} (h : sel < 4) : r.special sel = BitVec.ofNat 40 (r.P sel) := by
  unfold EngRun.special; rw [if_pos h]; rfl

/-- GETS of the flag word (R213). -/
theorem EngRun.special_flags (r : EngRun) : r.special 5 = r.flags.zeroExtend 40 :=
  BitVec.ofNat_toNat 40 r.flags

/-- What GETS reads is the same of two runs with the same registers. -/
theorem EngRun.special_congr {r r0 : EngRun} (sel : Nat) (hZ : ∀ j, r0.Z j = r.Z j) (hP : ∀ j, r0.P j = r.P j)
    (hlc : r0.lc = r.lc) (hF : r0.flags = r.flags) : r0.special sel = r.special sel := by
  have h0 : r0.z0 = r.z0 := hZ 0
  have h1 : r0.z1 = r.z1 := hZ 1
  simp only [EngRun.special, hP, hlc, hF, h0, h1]

section Forms

variable {s : State} {c : Instr} {op : Nat} {i : Issue} {srcs : List Nat}

/-- An instruction that writes Wd alone retires with it. -/
theorem retires_setW (v : EngRun → Word) (h : Ready s.dev i srcs) (hop : opcodeOf c = op) (hlegal : fieldsOk op i = true)
    (hc : exec c s = .next { s with dev := (s.dev.alu op i srcs 1 fun r => r.setW i.dn (v r)).settle })
    (hv : ∀ r r0 : EngRun, (∀ j, r0.W j = r.W j) → (∀ j, r0.Z j = r.Z j) → (∀ j, r0.P j = r.P j) → r0.lc = r.lc →
      r0.flags = r.flags → v r0 = v r) :
    Retires s c i srcs [i.dn] [] [] [] 1 (fun a b => b.W i.dn = v a) := by
  refine retires_alu _ h hop hlegal hc (fun _ => by simp) (fun r j hj => ?_) (fun _ _ _ _ => by simp)
    (fun _ _ _ _ => by simp) (fun _ _ _ => by simp) (fun r r0 hW _ hZ hP hlc hF => ?_)
  · rw [EngRun.W_setW, if_neg (List.ne_of_not_mem_cons hj)]
  · rw [EngRun.next_W, EngRun.W_setW, if_pos rfl, hv r r0 hW hZ hP hlc hF]

/-- An instruction that writes pointer `k` alone retires with it. -/
theorem retires_setP (k : Nat) (v : (Nat → Word) → Nat) (h : Ready s.dev i srcs) (hop : opcodeOf c = op)
    (hlegal : fieldsOk op i = true)
    (hc : exec c s = .next { s with dev := (s.dev.alu op i srcs 1 fun r => r.setP k (v r.W)).settle }) :
    Retires s c i srcs [] [] [] [k] 1 (fun a b => b.P k = v a.W % 65536) := by
  refine retires_alu _ h hop hlegal hc (fun _ => by simp) (fun _ _ _ => by simp) (fun _ _ _ _ => by simp)
    (fun _ _ _ _ => by simp) (fun r j hj => ?_) (fun r r0 hW _ _ _ _ _ => ?_)
  · rw [EngRun.P_setP, if_neg (List.ne_of_not_mem_cons hj)]
  · rw [EngRun.next_P, EngRun.P_setP, if_pos rfl, funext hW]

/-- PUTS works on its run as what it writes says. -/
theorem exec_puts_eq {f : EngRun → EngRun} (hf : ∀ r : EngRun, r.putSpecial i.xn (r.W i.an) = f r) :
    exec (.puts i) s = .next { s with dev := (s.dev.alu 0x0C i [i.an] 1 f).settle } := by
  rw [← funext hf]; rfl

/-- X as a selector of a special register. -/
theorem Issue.xn_ofNat {k : Nat} (hk : k < 2 ^ 22) (hx : i.x = BitVec.ofNat 22 k) : i.xn = k := by
  rw [Issue.xn, hx, BitVec.toNat_ofNat, Nat.mod_eq_of_lt hk]

/-- X as a zero-extended immediate. -/
theorem Issue.xn_zeroExtend {k : Nat} (hk : k ≤ 22) {v : BitVec k} (hx : i.x = v.zeroExtend 22) : i.xn = v.toNat := by
  rw [Issue.xn, hx, BitVec.zeroExtend_eq_setWidth, BitVec.toNat_setWidth_of_le hk]

theorem Issue.noA_ne_zero (h : i.a ≠ 0) : i.noA = false :=
  beq_eq_false_iff_ne.mpr fun h0 => h (Fin.ext h0)

theorem selOk_eq {k : Nat} (hk : k < 16) (hx : i.x = BitVec.ofNat 22 k) : selOk i = decide (k < 10) := by
  rw [selOk, Issue.xLow, Issue.xn_ofNat (by omega) hx]; simp [hk]

/-- The fields of a PUTS with a listed selector are legal (R213). -/
theorem puts_legal {k : Nat} (hk : k < 10) (hd : i.d = 0) (hb : i.b = 0) (hx : i.x = BitVec.ofNat 22 k) :
    fieldsOk 0x0C i = true := by
  simp [fieldsOk, Issue.noD_zero hd, Issue.noB_zero hb, selOk_eq (by omega : k < 16) hx, hk]

/-- GETS (R213). -/
theorem retires_gets {sel : Nat} (hsel : sel < 10) (h : Ready s.dev i []) (ha : i.a = 0) (hb : i.b = 0)
    (hx : i.x = BitVec.ofNat 22 sel) :
    Retires s (.gets i) i [] [i.dn] [] [] [] 1 (fun a b => b.W i.dn = a.special sel) := by
  have hl : fieldsOk 0x0B i = true := by
    simp [fieldsOk, Issue.noA_zero ha, Issue.noB_zero hb, selOk_eq (by omega : sel < 16) hx, hsel]
  refine (retires_setW (op := 0x0B) (fun r => r.special i.xn) h rfl hl rfl fun r r0 _ hZ hP hlc hF => ?_).imp
    fun a b hw => by rwa [Issue.xn_ofNat (by omega) hx] at hw
  exact EngRun.special_congr _ hZ hP hlc hF

/-- PUTS to LC: the end test of R210 finds the new count. -/
theorem runStep_puts_lc (h : Ready s.dev i [i.an]) (hd : i.d = 0) (hb : i.b = 0) (hx : i.x = 4)
    (hf : Fetched s.dev (.puts i) i ((s.dev.run i.eng).issueAt [i.an] + 1)) :
    ∃ d, exec (.puts i) s = .next { s with dev := d.settle } ∧
      RunStep s.dev d i.eng [] [] [] [] ((s.dev.run i.eng).issueAt [i.an] + 1) ∧
      SeqStep (s.dev.run i.eng) (d.run i.eng) (((s.dev.run i.eng).W i.an).toNat % 2 ^ 16) := by
  obtain ⟨hword, ht⟩ := hf
  have hxn : i.xn = 4 := Issue.xn_ofNat (by norm_num) hx
  have hl : fieldsOk 0x0C i = true := puts_legal (k := 4) (by norm_num) hd hb hx
  obtain ⟨hstep, hrun⟩ := Dev.alu_step (op := 0x0C) h 1 (fun r => { r with lc := (r.W i.an).toNat % 65536 }) [] [] [] []
    hword ht hl (fun _ => rfl) (fun _ _ _ => rfl) (fun _ _ _ _ => rfl) (fun _ _ _ _ => rfl) (fun _ _ _ => rfl)
  refine ⟨_, exec_puts_eq fun r => by rw [hxn]; rfl, hstep, ?_⟩
  rw [hrun]
  exact (EngRun.next_seq _).of_same rfl rfl rfl

/-- PUTS to the flag word (R213). -/
theorem retires_puts_flags (h : Ready s.dev i [i.an]) (hd : i.d = 0) (hb : i.b = 0) (hx : i.x = 5) :
    Retires s (.puts i) i [i.an] [] [fZ, fN, fC, fV] [] [] 1 (fun a b =>
      b.flag fZ = (a.W i.an).getLsbD 0 ∧ b.flag fN = (a.W i.an).getLsbD 1 ∧ b.flag fC = (a.W i.an).getLsbD 2 ∧
      b.flag fV = (a.W i.an).getLsbD 3) := by
  have hxn : i.xn = 5 := Issue.xn_ofNat (by norm_num) hx
  have hl : fieldsOk 0x0C i = true := puts_legal (k := 5) (by norm_num) hd hb hx
  refine retires_alu (fun r => r.putSpecial 5 (r.W i.an)) h rfl hl (exec_puts_eq fun r => by rw [hxn]) (fun _ => rfl)
    (fun _ _ _ => rfl) (fun r j _ hj => ?_) (fun _ _ _ _ => rfl) (fun _ _ _ => rfl) (fun r r0 hW _ _ _ _ _ => ?_)
  · simp only [List.mem_cons, List.not_mem_nil, or_false, not_or, fZ, fN, fC, fV] at hj
    rw [EngRun.flag_putSpecial_flags, if_neg (by omega)]
  · simp [EngRun.flag_putSpecial_flags, hW, fZ, fN, fC, fV]

/-- A GETS or PUTS with a selector of 10 to 15 is illegal (R213). -/
theorem endsOpcode_special {sel : Nat} (h16 : sel < 16) (h10 : 10 ≤ sel) (hx : i.x = BitVec.ofNat 22 sel) :
    (Ready s.dev i [] → EndsOpcode s (.gets i) i []) ∧ (Ready s.dev i [i.an] → EndsOpcode s (.puts i) i [i.an]) := by
  have hsel : selOk i = false := by rw [selOk_eq h16 hx]; simp [h10]
  exact ⟨fun h => endsOpcode_alu (op := 0x0B) h rfl rfl (by simp [fieldsOk, hsel]),
    fun h => endsOpcode_alu (op := 0x0C) h rfl rfl (by simp [fieldsOk, hsel])⟩

end Forms

/-- Settles O5: the moves write one register, PSET a pointer, GETS and PUTS what their selector names. -/
theorem movesAndSpecialRegisters : Obligations.MovesAndSpecialRegisters := by
  unfold Obligations.MovesAndSpecialRegisters
  refine ⟨fun s i => ⟨fun h hb hx => ?mov, fun h ha hb => ?ldi, fun imm h ha hb hx => ?ldih, fun v h hd ha hb hx => ?pset,
      fun h hf => ?ldihIllegal⟩,
    fun s i => ⟨fun sel hsel h ha hb hx => ?gets, fun sel h16 h10 hx => endsOpcode_special h16 h10 hx⟩,
    fun s i h hd hb => ⟨fun n hn hx => ?ptr, fun hx hf => runStep_puts_lc h hd hb hx hf, fun hx => retires_puts_flags h hd hb hx,
      fun z hz hx => ?low, fun z hz hx => ?high⟩⟩
  case mov =>
    exact retires_setW (op := 0x08) (fun r => r.W i.an) h rfl (by simp [fieldsOk, Issue.noB_zero hb, Issue.xLow_zero hx]) rfl
      fun r r0 hW _ _ _ _ => hW i.an
  case ldi =>
    exact retires_setW (op := 0x09) (fun _ => i.x.signExtend 40) h rfl
      (by simp [fieldsOk, Issue.noA_zero ha, Issue.noB_zero hb]) rfl fun _ _ _ _ _ _ _ => rfl
  case ldih =>
    have hxn : i.xn = imm.toNat := Issue.xn_zeroExtend (by norm_num) hx
    have hl : fieldsOk 0x0A i = true := by
      simp [fieldsOk, Issue.noA_zero ha, Issue.noB_zero hb, Issue.xLow, hxn, imm.isLt]
    refine (retires_setW (op := 0x0A) (fun r => fput (r.W i.dn) 22 18 i.xn) h rfl hl rfl
      fun r r0 hW _ _ _ _ => by rw [hW]).imp fun a b hw => ?_
    rwa [hxn, fput_high] at hw
  case pset =>
    have hxn : i.xn = v.toNat := Issue.xn_zeroExtend (by norm_num) hx
    have hl : fieldsOk 0x0D i = true := by
      simp [fieldsOk, Issue.dn, hd, Issue.noA_zero ha, Issue.noB_zero hb, Issue.xLow, hxn, v.isLt]
    refine (retires_setP (op := 0x0D) i.dn (fun _ => i.xn) h rfl hl rfl).imp fun a b hp => ?_
    rwa [hxn, Nat.mod_eq_of_lt v.isLt] at hp
  case ldihIllegal =>
    refine endsOpcode_alu (op := 0x0A) h rfl rfl ?_
    show (i.noA && i.noB && i.xLow 18) = false
    by_cases hlow : i.x.toNat < 2 ^ 18
    · rcases hf hlow with ha | hb
      · simp [Issue.noA_ne_zero ha]
      · simp [Issue.noB_ne_zero hb]
    · rw [Issue.xLow, Issue.xn, decide_eq_false hlow, Bool.and_false]
  case gets =>
    refine (retires_gets hsel h ha hb hx).imp fun a b hw => ⟨?_, ?_, ?_, ?_, ?_, ?_, ?_⟩
    · exact fun h4 => hw.trans (a.special_ptr h4)
    · rintro rfl; exact hw
    · rintro rfl; exact hw.trans a.special_flags
    all_goals rintro rfl; exact hw
  case ptr =>
    have hxn : i.xn = n := Issue.xn_ofNat (by omega) hx
    exact retires_setP (op := 0x0C) n (fun w => (w i.an).toNat) h rfl (puts_legal (by omega) hd hb hx)
      (exec_puts_eq fun r => by rw [hxn, r.putSpecial_ptr hn])
  case low =>
    have hxn : i.xn = 6 + 2 * z := Issue.xn_ofNat (by omega) hx
    exact retires_setZ (op := 0x0C) z (fun w acc => (acc z).extractLsb' 40 48 ++ w i.an) h rfl
      (puts_legal (by omega) hd hb hx) hz (exec_puts_eq fun r => by rw [hxn, r.putSpecial_low hz])
  case high =>
    have hxn : i.xn = 7 + 2 * z := Issue.xn_ofNat (by omega) hx
    exact retires_setZ (op := 0x0C) z (fun w acc => (w i.an).signExtend 48 ++ (acc z).extractLsb' 0 40) h rfl
      (puts_legal (by omega) hd hb hx) hz (exec_puts_eq fun r => by rw [hxn, r.putSpecial_high hz])

end Sys2Proof.Machine
end

section
/-! SUPPORT. Control flow: transfers of control, the return stack and loops (R208 to R211). -/

namespace Sys2Proof.Machine

/-! ### Where a transfer of control leads -/

/-- The condition of BR by its code in D (R208). -/
theorem EngRun.cond_eq_getD (r : EngRun) (c : Fin 16) :
    r.cond c.val = [true, r.flag fZ, !r.flag fZ, r.flag fN, !r.flag fN, !r.flag fN && !r.flag fZ, r.flag fN || r.flag fZ,
      r.flag fC, !r.flag fC, r.flag fV, !r.flag fV, r.flag fSat, r.flag fPv, !r.flag fPv, r.flag fFr,
      r.flag fImm].getD c.val false := by
  fin_cases c <;> rfl

/-- A taken BR ends a loop that it leaves at the loop's own depth (R210). -/
theorem EngRun.branch_eq (r : EngRun) (t : Nat) : r.branch t = { r with pc := t, loop := r.loopAfter t r.stack } := by
  unfold EngRun.branch EngRun.loopAfter
  cases hl : r.loop with
  | none => simp
  | some l =>
    by_cases hd : r.stack.length = l.depth <;> by_cases ht : l.start ≤ t ∧ t ≤ l.stop <;> simp [Loop.holds, hd, ht]

/-- RET at the loop's depth ends the loop; from deeper it ends one that it returns to outside the body (R210). -/
theorem EngRun.ret_eq (r : EngRun) (t : Nat) (rest : List Nat) :
    r.ret t rest = { r with pc := t, stack := rest, loop :=
      if (r.loop.any fun l => r.stack.length == l.depth) then none else r.loopAfter t rest } := by
  unfold EngRun.ret EngRun.loopAfter
  cases hl : r.loop with
  | none => simp
  | some l =>
    by_cases h0 : r.stack.length = l.depth
    · simp [h0]
    · by_cases hd : rest.length = l.depth <;> by_cases ht : l.start ≤ t ∧ t ≤ l.stop <;> simp [Loop.holds, h0, hd, ht]

/-- The end test writes the program counter, LC and the loop alone (R210). -/
theorem EngRun.next_eq (r : EngRun) : r.next = { r with pc := r.next.pc, lc := r.next.lc, loop := r.next.loop } := by
  unfold EngRun.next; repeat' split
  all_goals rfl

/-! ### What each transfer of control issues -/

/-- What CALL does to its run (R209). -/
def EngRun.pushed (r : EngRun) (t : Nat) : EngRun := { r with stack := (r.pc + 1) :: r.stack, pc := t }

/-- What LOOPI does to its run (R210). -/
def EngRun.opened (r : EngRun) (stop count : Nat) : EngRun :=
  if count = 0 then { r with pc := stop + 1 }
  else { r with lc := count, loop := some { start := r.pc + 1, stop := stop, depth := r.stack.length }, pc := r.pc + 1 }

theorem EngRun.opened_zero (r : EngRun) (stop : Nat) {count : Nat} (h : count = 0) :
    r.opened stop count = { r with pc := stop + 1 } := if_pos h

theorem EngRun.opened_ne_zero (r : EngRun) (stop : Nat) {count : Nat} (h : ¬ count = 0) :
    r.opened stop count =
      { r with lc := count, loop := some { start := r.pc + 1, stop := stop, depth := r.stack.length }, pc := r.pc + 1 } :=
  if_neg h

section Issues

variable {s : State} {i : Issue}

theorem exec_ret_cons {t : Nat} {rest : List Nat} (h : (s.dev.run i.eng).stack = t :: rest) :
    exec (.ret i) s = .next { s with dev := (s.dev.issueRaw 0x05 i true [] 2 fun d =>
      d.modRun i.eng.val fun r => r.ret t rest).settle } := by
  have h : (s.dev.eng i.eng.val).run.stack = t :: rest := h
  show Host.Outcome.next { s with dev := (s.dev.retI i).settle } = _
  unfold Dev.retI
  simp only [h]

theorem exec_ret_nil (h : (s.dev.run i.eng).stack = []) :
    exec (.ret i) s = .next { s with dev := (s.dev.issueRaw 0x05 i false [] 2 id).settle } := by
  have h : (s.dev.eng i.eng.val).run.stack = [] := h
  show Host.Outcome.next { s with dev := (s.dev.retI i).settle } = _
  unfold Dev.retI
  simp only [h]

theorem exec_br_notTaken (h : (s.dev.run i.eng).cond i.dn = false) :
    exec (.br i) s = .next { s with dev := (s.dev.issueRaw 0x03 i true [] 1 fun d =>
      d.modRun i.eng.val EngRun.next).settle } := by
  have h : (s.dev.eng i.eng.val).run.cond i.dn = false := h
  show Host.Outcome.next { s with dev := (s.dev.br i).settle } = _
  unfold Dev.br
  simp only [h, Bool.false_eq_true, if_false]

theorem exec_br_taken (h : (s.dev.run i.eng).cond i.dn = true) :
    exec (.br i) s = .next { s with dev := (s.dev.issueRaw 0x03 i true [] 2 fun d =>
      d.modRun i.eng.val fun r => r.branch i.xn).settle } := by
  have h : (s.dev.eng i.eng.val).run.cond i.dn = true := h
  show Host.Outcome.next { s with dev := (s.dev.br i).settle } = _
  unfold Dev.br
  simp only [h, if_true]

/-- CALL asks for a free entry of the stack. -/
theorem exec_call (s : State) (i : Issue) :
    exec (.call i) s = .next { s with dev :=
      (s.dev.issueRaw 0x04 i (!decide (4 ≤ (s.dev.run i.eng).stack.length)) [] 2 fun d =>
        d.modRun i.eng.val fun r => r.pushed i.xn).settle } := rfl

/-- LOOPI asks for an end beyond it and for no loop around it. -/
theorem exec_loopi (s : State) (i : Issue) :
    exec (.loopi i) s = .next { s with dev :=
      (s.dev.issueRaw 0x06 i (decide ((s.dev.run i.eng).pc < i.xn) && (s.dev.run i.eng).loop.isNone) []
        (if loopCount i = 0 then 2 else 1) fun d => d.modRun i.eng.val fun r => r.opened i.xn (loopCount i)).settle } := rfl

end Issues

section Forms

variable {s : State} {c : Instr} {op : Nat} {i : Issue} {n : Nat}

/-- An instruction whose work is an update `g` of its run, the program counter included, changes nothing but the run. -/
theorem engineOnly_of_issueRaw {also : Bool} (g : EngRun → EngRun) (h : Ready s.dev i []) (hop : opcodeOf c = op)
    (hlegal : fieldsOk op i = true) (halso : also = true)
    (hc : exec c s = .next { s with dev := (s.dev.issueRaw op i also [] n fun d => d.modRun i.eng.val g).settle })
    (hf : Fetched s.dev c i ((s.dev.run i.eng).cyc + n)) :
    ∃ d : Dev, exec c s = .next { s with dev := d.settle } ∧ EngineOnly s.dev d i.eng ∧
      d.run i.eng = g { s.dev.run i.eng with cyc := (s.dev.run i.eng).cyc + n } := by
  obtain ⟨hword, ht⟩ := hf
  subst halso
  rw [Dev.issueRaw_ready h n _ (hop ▸ hword) ht hlegal] at hc
  have hrun : ∀ f : EngRun → EngRun, ((s.dev.modRun i.eng f).modRun i.eng g).run i.eng = g (f (s.dev.run i.eng)) :=
    fun f => by rw [Dev.modRun_run, if_pos rfl, Dev.modRun_run, if_pos rfl]
  refine ⟨_, hc, ⟨rfl, fun j hj => ?_, ?_⟩, hrun _⟩
  · rw [Dev.modRun_eng, if_neg hj, Dev.modRun_eng, if_neg hj]
  · rw [hrun, Dev.modRun_eng, if_pos rfl, Dev.modRun_eng, if_pos rfl]; rfl

/-- An instruction that only goes on retires without a result. -/
theorem retires_next (h : Ready s.dev i []) (hop : opcodeOf c = op) (hlegal : fieldsOk op i = true)
    (hc : exec c s = .next { s with dev :=
      (s.dev.issueRaw op i true [] n fun d => d.modRun i.eng.val EngRun.next).settle }) :
    Retires s c i [] [] [] [] [] n fun _ _ => True := by
  intro hf
  obtain ⟨d, hx, ⟨hdev, hothers, hunit⟩, hrun⟩ := engineOnly_of_issueRaw EngRun.next h hop hlegal rfl hc hf
  refine ⟨d, hx, ⟨hdev, hothers, hunit, ?_, ?_, ?_, ?_, ?_, ?_⟩, ?_, trivial⟩
  · intro j _; rw [hrun, EngRun.next_W]; rfl
  · intro j _ _; rw [hrun, EngRun.next_flag]; rfl
  · intro j _ _; rw [hrun, EngRun.next_Z]; rfl
  · intro j _; rw [hrun, EngRun.next_P]; rfl
  · rw [hrun, EngRun.next_eq]; rfl
  · rw [hrun]
    conv_lhs => rw [EngRun.next_eq]
    conv_rhs => rw [EngRun.next_eq]
  · rw [hrun]; exact (EngRun.next_seq _).of_same rfl rfl rfl

/-- A LOOPI within a loop, or one whose end does not lie beyond it, is illegal (R210). -/
theorem endsOpcode_loopi (h : Ready s.dev i [])
    (hbad : i.x.toNat ≤ (s.dev.run i.eng).pc ∨ (s.dev.run i.eng).loop ≠ none) :
    EndsOpcode s (.loopi i) i [] := by
  refine endsOpcode_of_illegal (op := 0x06) h rfl (exec_loopi s i) ?_
  have hand : (decide ((s.dev.run i.eng).pc < i.xn) && (s.dev.run i.eng).loop.isNone) = false := by
    rw [Bool.and_eq_false_iff]
    exact hbad.imp (fun hle => decide_eq_false (Nat.not_lt.mpr hle)) fun hl => by simpa [Option.isSome_iff_ne_none] using hl
  rw [hand, Bool.and_false]

end Forms

/-- Settles O9: each transfer is one update of the run, and each breach is an illegal issue. -/
theorem controlFlow : Obligations.ControlFlow := by
  unfold Obligations.ControlFlow
  refine ⟨fun s i h ha hb hx => ?br, fun s i h hd ha hb => ?stack, fun s i h hx => ?loop⟩
  case br =>
    have hl : fieldsOk 0x03 i = true := by
      simp only [fieldsOk, Issue.noA_zero ha, Issue.noB_zero hb, Bool.true_and]; exact decide_eq_true hx
    intro a z n taken
    have htaken : a.cond i.dn = taken := a.cond_eq_getD i.d
    refine ⟨fun hno => ?_, fun hyes hf => ?_⟩
    · exact retires_next (op := 0x03) h rfl hl (exec_br_notTaken (htaken.trans hno))
    · obtain ⟨d, hx, honly, hrun⟩ := engineOnly_of_issueRaw (op := 0x03) (fun r => r.branch i.xn) h rfl hl rfl
        (exec_br_taken (htaken.trans hyes)) hf
      exact ⟨d, hx, honly, by rw [hrun, EngRun.branch_eq]; rfl⟩
  case stack =>
    intro a
    refine ⟨fun hx hlen hf => ?call, fun hlen => ?callFull, fun t rest hx hst hf => ?ret, fun hst => ?retEmpty⟩
    case call =>
      have hl : fieldsOk 0x04 i = true := by
        simp only [fieldsOk, Issue.noD_zero hd, Issue.noA_zero ha, Issue.noB_zero hb, Bool.true_and]; exact decide_eq_true hx
      exact engineOnly_of_issueRaw (op := 0x04) (fun r => r.pushed i.xn) h rfl hl
        (by rw [decide_eq_false (Nat.not_le.mpr hlen), Bool.not_false]) (exec_call s i) hf
    case callFull =>
      exact endsOpcode_of_illegal (op := 0x04) h rfl (exec_call s i)
        (by rw [decide_eq_true hlen, Bool.not_true, Bool.and_false])
    case ret =>
      have hl : fieldsOk 0x05 i = true := by
        simp [fieldsOk, Issue.noD_zero hd, Issue.noA_zero ha, Issue.noB_zero hb, Issue.xLow_zero hx]
      obtain ⟨d, hx, honly, hrun⟩ := engineOnly_of_issueRaw (op := 0x05) (fun r => r.ret t rest) h rfl hl rfl
        (exec_ret_cons hst) hf
      exact ⟨d, hx, honly, by rw [hrun, EngRun.ret_eq]; rfl⟩
    case retEmpty =>
      exact endsOpcode_of_illegal (op := 0x05) (also := false) h rfl (exec_ret_nil hst) (Bool.and_false _)
  case loop =>
    intro a count
    refine ⟨fun hpc hloop hf => ?loopi, endsOpcode_loopi h, fun hd ha hb hx0 => ?nop⟩
    case loopi =>
      have halso : (decide (a.pc < i.xn) && a.loop.isNone) = true := by
        rw [hloop, Option.isNone_none, Bool.and_true]; exact decide_eq_true hpc
      obtain ⟨d, hx, honly, hrun⟩ := engineOnly_of_issueRaw (op := 0x06) (fun r => r.opened i.xn (loopCount i)) h rfl
        (decide_eq_true hx) halso (exec_loopi s i) hf
      refine ⟨d, hx, honly, fun h0 => ?_, fun h0 => ?_⟩
      · have h0 : loopCount i = 0 := h0
        rw [hrun, EngRun.opened_zero _ _ h0, if_pos h0]; rfl
      · have h0 : loopCount i ≠ 0 := Nat.pos_iff_ne_zero.mp h0
        rw [hrun, EngRun.opened_ne_zero _ _ h0, if_neg h0]; rfl
    case nop =>
      have hl : fieldsOk 0x01 i = true := by
        simp [fieldsOk, Issue.noD_zero hd, Issue.noA_zero ha, Issue.noB_zero hb, Issue.xLow_zero hx0]
      exact retires_alu (op := 0x01) id h rfl hl rfl (fun _ => rfl) (fun _ _ _ => rfl) (fun _ _ _ _ => rfl)
        (fun _ _ _ _ => rfl) (fun _ _ _ => rfl) fun _ _ _ _ _ _ _ _ => trivial

end Sys2Proof.Machine
end

section
/-! SUPPORT. Frame transforms and space-vector modulation (R224 to R226). -/

namespace Sys2Proof.Machine

/-! ### Results in several registers -/

/-- V=s writes V and SAT alone (R204). -/
theorem EngRun.vs_flag_of_notMem (r : EngRun) (c : Bool) (j : Nat) (hj : j ∉ [fV, fSat]) :
    (r.vs c).flag j = r.flag j := by
  simp only [List.mem_cons, List.not_mem_nil, or_false, not_or] at hj
  rw [EngRun.flag_vs, if_neg hj.1, if_neg hj.2]

/-- V=s after updates that leave the flags (R204). -/
theorem EngRun.vs_clampedVs {a r : EngRun} (h : ∀ j, r.flag j = a.flag j) (c : Bool) : (r.vs c).clampedVs a c := by
  refine ⟨?_, ?_⟩
  · rw [EngRun.flag_vs, if_pos rfl]
  · rw [EngRun.flag_vs, if_neg (by decide), if_pos rfl, h]

section Forms

variable {s : State} {c : Instr} {op : Nat} {i : Issue} {srcs : List Nat} {n : Nat}

/-- An instruction that narrows two exact values to the pair at Wd retires with both (R224, R225). -/
theorem retires_pair (x y : (Nat → Word) → Int) (k : (Nat → Word) → Bool) (h : Ready s.dev i srcs) (hop : opcodeOf c = op)
    (hlegal : fieldsOk op i = true)
    (hc : exec c s = .next { s with dev := (s.dev.alu op i srcs n fun r =>
      r.pair i.dn (sat (x r.W)) (sat (y r.W)) (k r.W)).settle }) :
    Retires s c i srcs [i.dn, i.dn + 1] [fV, fSat] [] [] n (fun a b =>
      b.W i.dn = satWord (x a.W) ∧ b.W (i.dn + 1) = satWord (y a.W) ∧
      b.clampedVs a (outP32 (x a.W) || outP32 (y a.W) || k a.W)) := by
  refine retires_alu _ h hop hlegal hc (fun _ => by simp [EngRun.pair]) (fun r j hj => ?_) (fun r j _ hj => ?_)
    (fun _ _ _ _ => by simp [EngRun.pair]) (fun _ _ _ => by simp [EngRun.pair]) (fun r r0 hW hF _ _ _ _ => ?_)
    (fun _ => by simp [EngRun.pair])
  · simp only [List.mem_cons, List.not_mem_nil, or_false, not_or] at hj
    simp [EngRun.pair, EngRun.W_setW, hj]
  · rw [EngRun.pair, EngRun.vs_flag_of_notMem _ _ _ hj]; rfl
  · have hW : r0.W = r.W := funext hW
    refine ⟨?_, ?_, ?_⟩
    · simp [EngRun.pair, EngRun.W_setW, hW, sat, satP32_eq, satWord, wordI]
    · simp [EngRun.pair, EngRun.W_setW, hW, sat, satP32_eq, satWord, wordI]
    · rw [EngRun.next_clampedVs, EngRun.pair, hW]
      exact EngRun.vs_clampedVs (fun j => by simp [hF]) _

end Forms

/-! ### The exact values -/

section Exec

variable {s : State} {i : Issue}

/-- CLARKE of two phases. -/
theorem exec_clarke_two (h : i.xn = 0) :
    exec (.clarke i) s = .next { s with dev := (s.dev.alu 0x33 i [i.an, i.bn] 3 fun r =>
      r.pair i.dn (sat (r.WI i.an)) (sat (rnd ((r.WI i.an + 2 * r.WI i.bn) * k3) 31)) false).settle } := by
  show Host.Outcome.next { s with dev := (s.dev.clarkeI i).settle } = _
  unfold Dev.clarkeI
  rw [h]; rfl

/-- CLARKE of three phases. -/
theorem exec_clarke_three (h : i.xn = 1) :
    exec (.clarke i) s = .next { s with dev := (s.dev.alu 0x33 i [i.an, i.bn, i.bn + 1] 3 fun r =>
      r.pair i.dn (sat (rnd ((2 * r.WI i.an - r.WI i.bn - r.WI (i.bn + 1)) * k13) 31))
        (sat (rnd ((r.WI i.bn - r.WI (i.bn + 1)) * k3) 31)) false).settle } := by
  show Host.Outcome.next { s with dev := (s.dev.clarkeI i).settle } = _
  unfold Dev.clarkeI
  rw [h]; rfl

/-- PARK turns by the angle (R225). -/
theorem parkOf_false (x y : Int) (w : Word) :
    parkOf false x y w = (sat (rnd (x * (trig w).2.1 + y * (trig w).1.1) 31),
      sat (rnd (y * (trig w).2.1 - x * (trig w).1.1) 31),
      (trig w).1.2 || (trig w).2.2) := by
  simp [parkOf]

/-- IPARK turns back (R225). -/
theorem parkOf_true (x y : Int) (w : Word) :
    parkOf true x y w = (sat (rnd (x * (trig w).2.1 - y * (trig w).1.1) 31),
      sat (rnd (x * (trig w).1.1 + y * (trig w).2.1) 31),
      (trig w).1.2 || (trig w).2.2) := by
  simp [parkOf, sub_eq_add_neg, Int.add_comm]

theorem exec_park (s : State) (i : Issue) :
    exec (.park i) s = .next { s with dev := (s.dev.alu 0x34 i [i.an, i.an + 1, i.bn] 20 fun r =>
      r.pair i.dn (sat (rnd (r.WI i.an * (trig (r.W i.bn)).2.1 + r.WI (i.an + 1) * (trig (r.W i.bn)).1.1) 31))
        (sat (rnd (r.WI (i.an + 1) * (trig (r.W i.bn)).2.1 - r.WI i.an * (trig (r.W i.bn)).1.1) 31))
        ((trig (r.W i.bn)).1.2 || (trig (r.W i.bn)).2.2)).settle } := by
  show Host.Outcome.next { s with dev := (s.dev.parkForm 0x34 i false).settle } = _
  simp only [Dev.parkForm, parkOf_false]

theorem exec_ipark (s : State) (i : Issue) :
    exec (.ipark i) s = .next { s with dev := (s.dev.alu 0x35 i [i.an, i.an + 1, i.bn] 20 fun r =>
      r.pair i.dn (sat (rnd (r.WI i.an * (trig (r.W i.bn)).2.1 - r.WI (i.an + 1) * (trig (r.W i.bn)).1.1) 31))
        (sat (rnd (r.WI i.an * (trig (r.W i.bn)).1.1 + r.WI (i.an + 1) * (trig (r.W i.bn)).2.1) 31))
        ((trig (r.W i.bn)).1.2 || (trig (r.W i.bn)).2.2)).settle } := by
  show Host.Outcome.next { s with dev := (s.dev.parkForm 0x35 i true).settle } = _
  simp only [Dev.parkForm, parkOf_true]

end Exec

/-! ### Space-vector modulation -/

/-- The clamp lies between its ends. -/
theorem clampI_mem {lo hi : Int} (h : lo ≤ hi) (x : Int) : lo ≤ clampI lo hi x ∧ clampI lo hi x ≤ hi := by
  unfold clampI; split <;> [omega; (split <;> omega)]

/-- A duty as a word reads as the duty (R226). -/
theorem toInt_wordI_duty (x : Int) : (wordI (clampI 0 (2 ^ 31) x)).toInt = clampI 0 (2 ^ 31) x := by
  obtain ⟨hlo, hhi⟩ := clampI_mem (lo := 0) (hi := 2 ^ 31) (by norm_num) x
  exact toInt_wordI (by omega) (by omega)

/-- A span above 1.0 shortens the three voltages to 1.0 (R226). -/
theorem shortened_eq (span v : Int) :
    (if decide ((2 : Int) ^ 31 < span) = true then floorDiv (v * 2 ^ 31) span.toNat else v) =
      if 2 ^ 31 < span then v * 2 ^ 31 / span else v := by
  by_cases h : (2 : Int) ^ 31 < span
  · rw [if_pos (decide_eq_true h), if_pos h, floorDiv, Int.toNat_of_nonneg (by omega)]
  · rw [if_neg (by simpa using h), if_neg h]

/-- The sectors as a table over the phases of the largest and the smallest voltage (R226). -/
theorem sectorOf_phases (mx mn u v : Int) :
    sectorOf (phaseOf mx u v) (phaseOf mn u v) =
      (([[0, 6, 1], [3, 0, 2], [4, 5, 0]] : List (List Nat)).getD (phaseOf mx u v) []).getD (phaseOf mn u v) 0 := by
  have hlt : ∀ m, phaseOf m u v < 3 := fun m => by unfold phaseOf; split <;> [omega; (split <;> omega)]
  have table : ∀ p q : Fin 3, sectorOf p.val q.val =
      (([[0, 6, 1], [3, 0, 2], [4, 5, 0]] : List (List Nat)).getD p.val []).getD q.val 0 := by decide
  exact table ⟨_, hlt mx⟩ ⟨_, hlt mn⟩

/-- SVM retires with the three duties and the sector (R226). -/
theorem retires_svm {s : State} {i : Issue} (h : Ready s.dev i [i.an, i.an + 1]) (hl : fieldsOk 0x36 i = true) :
    Retires s (.svm i) i [i.an, i.an + 1] [i.dn, i.dn + 1, i.dn + 2, i.dn + 3] [fV, fSat] [] [] 10 (fun a b =>
      let t := svm (a.WI i.an) (a.WI (i.an + 1))
      b.WI i.dn = t.1 ∧ b.WI (i.dn + 1) = t.2.1 ∧ b.WI (i.dn + 2) = t.2.2.1 ∧ b.W (i.dn + 3) = wordN t.2.2.2.1 ∧
      b.clampedVs a t.2.2.2.2) := by
  refine retires_alu (op := 0x36) _ h rfl hl rfl (fun _ => by simp) (fun r j hj => ?_) (fun r j _ hj => ?_)
    (fun _ _ _ _ => by simp) (fun _ _ _ => by simp) (fun r r0 hW hF _ _ _ _ => ?_)
  · simp only [List.mem_cons, List.not_mem_nil, or_false, not_or] at hj
    simp [EngRun.W_setW, hj]
  · rw [EngRun.vs_flag_of_notMem _ _ _ hj]; rfl
  · refine ⟨?_, ?_, ?_, ?_, ?_⟩
    · simp [EngRun.WI, EngRun.W_setW, hW]; exact toInt_wordI_duty _
    · simp [EngRun.WI, EngRun.W_setW, hW]; exact toInt_wordI_duty _
    · simp [EngRun.WI, EngRun.W_setW, hW]; exact toInt_wordI_duty _
    · simp [EngRun.WI, EngRun.W_setW, hW]
    · simp only [EngRun.next_clampedVs, EngRun.WI, hW]
      exact EngRun.vs_clampedVs (fun j => by simp [hF]) _

/-- Settles O7: the transforms are pairs of narrowed exact values, SVM the model's own with its steps as arithmetic. -/
theorem frameTransformsAndSvm : Obligations.FrameTransformsAndSvm := by
  unfold Obligations.FrameTransformsAndSvm
  refine ⟨fun s i => ⟨fun h hd hx => ?two, fun h hd hb hx => ?three, fun h hd ha hx => ⟨?park, ?ipark⟩⟩,
    fun s i h hd ha hb hx => ?svm⟩
  case two =>
    have hl : fieldsOk 0x33 i = true := by simp [fieldsOk, Issue.evenD, Issue.dn, hd, Issue.xLow, Issue.xn, hx]
    refine (retires_pair (op := 0x33) (fun w => (w i.an).toInt) (fun w => rnd (((w i.an).toInt + 2 * (w i.bn).toInt) * k3) 31)
      (fun _ => false) h rfl hl (exec_clarke_two (by simp [Issue.xn, hx]))).imp fun a b hres => ?_
    rwa [rnd_31, Bool.or_false] at hres
  case three =>
    have hl : fieldsOk 0x33 i = true := by
      simp [fieldsOk, Issue.evenD, Issue.dn, hd, Issue.xLow, Issue.xn, hx, Issue.bn, hb]
    refine (retires_pair (op := 0x33) (fun w => rnd ((2 * (w i.an).toInt - (w i.bn).toInt - (w (i.bn + 1)).toInt) * k13) 31)
      (fun w => rnd (((w i.bn).toInt - (w (i.bn + 1)).toInt) * k3) 31)
      (fun _ => false) h rfl hl (exec_clarke_three (by simp [Issue.xn, hx]))).imp fun a b hres => ?_
    rwa [rnd_31, rnd_31, Bool.or_false] at hres
  case park =>
    have hl : fieldsOk 0x34 i = true := by
      simp [fieldsOk, Issue.evenD, Issue.evenA, Issue.dn, Issue.an, hd, ha, Issue.xLow_zero hx]
    refine (retires_pair (op := 0x34)
      (fun w => rnd ((w i.an).toInt * (trig (w i.bn)).2.1 + (w (i.an + 1)).toInt * (trig (w i.bn)).1.1) 31)
      (fun w => rnd ((w (i.an + 1)).toInt * (trig (w i.bn)).2.1 - (w i.an).toInt * (trig (w i.bn)).1.1) 31)
      (fun w => (trig (w i.bn)).1.2 || (trig (w i.bn)).2.2) h rfl hl (exec_park s i)).imp fun a b hres => ?_
    rwa [rnd_31, rnd_31] at hres
  case ipark =>
    have hl : fieldsOk 0x35 i = true := by
      simp [fieldsOk, Issue.evenD, Issue.evenA, Issue.dn, Issue.an, hd, ha, Issue.xLow_zero hx]
    refine (retires_pair (op := 0x35)
      (fun w => rnd ((w i.an).toInt * (trig (w i.bn)).2.1 - (w (i.an + 1)).toInt * (trig (w i.bn)).1.1) 31)
      (fun w => rnd ((w i.an).toInt * (trig (w i.bn)).1.1 + (w (i.an + 1)).toInt * (trig (w i.bn)).2.1) 31)
      (fun w => (trig (w i.bn)).1.2 || (trig (w i.bn)).2.2) h rfl hl (exec_ipark s i)).imp fun a b hres => ?_
    rwa [rnd_31, rnd_31] at hres
  case svm =>
    have hl : fieldsOk 0x36 i = true := by
      simp [fieldsOk, Issue.evenA, Issue.dn, Issue.an, hd, ha, Issue.noB_zero hb, Issue.xLow_zero hx]
    refine (retires_svm h hl).imp fun a b hres => ?_
    simp only [svm, rnd_31, shortened_eq, sectorOf_phases, clampI_eq (by norm_num : (0 : Int) ≤ 2 ^ 31)] at hres
    exact hres

end Sys2Proof.Machine
end

section
/-! SUPPORT. Addresses of data memory and access faults (R186, R214). -/

namespace Sys2Proof.Machine

/-! ### The address -/

/-- The address of LD and ST: the pointer plus the signed offset, modulo 65,536 (R214). -/
theorem EngRun.dataAddr_eq (r : EngRun) (i : Issue) :
    r.dataAddr i = (((r.P i.bn : Int) + (i.x.extractLsb' 0 16).toInt) % 65536).toNat := by
  have hx : (i.x.extractLsb' 0 16).toNat = i.xn % 65536 := by simp [Issue.xn]
  have hs : (i.x.extractLsb' 0 16).toInt % 65536 = ((i.xn % 65536 : Nat) : Int) := by
    rw [BitVec.toInt_eq_toNat_bmod, hx]
    exact (Int.bmod_emod (m := 2 ^ 16)).trans (by omega)
  unfold EngRun.dataAddr
  rw [Int.add_emod, hs]
  omega

/-- X[20:16] of LD and ST are 0 in a legal one (R214). -/
theorem Issue.dataOk_of {i : Issue} (hb : i.b.val < 4) (hx : i.x.extractLsb' 16 5 = 0) : i.dataOk = true := by
  have h : (i.x.extractLsb' 16 5).toNat = 0 := by rw [hx]; rfl
  simp only [BitVec.extractLsb'_toNat, Nat.shiftRight_eq_div_pow] at h
  refine decide_eq_true ⟨hb, ?_⟩
  unfold Issue.xn
  omega

/-! ### Data memory -/

theorem Dev.setDmem_eng (d : Dev) (e a j : Nat) (w : Word) :
    (d.setDmem e a w).eng j =
      if j = e then { d.eng e with dmem := uset (d.eng e).dmem ((d.run e).dataIdx e a) w } else d.eng j :=
  Dev.modEng_eng ..

@[simp] theorem Dev.setDmem_run (d : Dev) (e a j : Nat) (w : Word) : (d.setDmem e a w).run j = d.run j := by
  unfold Dev.run
  rw [Dev.setDmem_eng]
  split
  next h => rw [h]
  next => rfl

/-! ### Access faults -/

/-- An access fault changes the registers and the engine alone. -/
theorem Dev.accessFault_frame (d : Dev) (e port kind : Nat) :
    d.accessFault e port kind =
      { d with regs := (d.accessFault e port kind).regs, engs := (d.accessFault e port kind).engs } := by
  unfold Dev.accessFault Dev.accessFaultAt
  simp only []
  split <;> rfl

/-- The record that the first access fault of a run leaves: AF, ENG_AFLT and EV96 (R186). -/
def Dev.firstFault (d : Dev) (e pc port kind : Nat) : Dev :=
  ((((d.putB F.ENG_STAT_AF e true).put F.ENG_AFLT_PC e pc).put F.ENG_AFLT_PORT e port).put F.ENG_AFLT_KIND e kind).raise 96

/-- The registers after an access fault. -/
theorem Dev.accessFault_regs (d : Dev) (e port kind : Nat) :
    (d.accessFault e port kind).regs =
      if (d.run e).faulted then (d.putB F.ENG_STAT_AF e true).regs else (d.firstFault e (d.run e).pc port kind).regs := by
  unfold Dev.accessFault Dev.accessFaultAt Dev.run
  simp only [Dev.modRun_regs]
  split <;> rfl

/-- A raised event leaves the fields of other registers. -/
theorem Dev.get_raise_ne (d : Dev) (n : Nat) (g : Fld) (j : Nat) (h : g.at_ j ≠ F.EVT_STAT.at_ (n / 32)) :
    (d.raise n).get g j = d.get g j := Dev.get_setReg_ne _ _ _ _ _ h

/-- A raised event shows in its status bit. -/
theorem Dev.ev_raise (d : Dev) (n : Nat) : (d.raise n).ev n = true := by
  have hlt : n % 32 < F.EVT_STAT.width := (Nat.mod_lt n (by norm_num)).trans (by decide)
  unfold Dev.ev Dev.raise Dev.putBit Dev.bit
  rw [Dev.get_put_same _ _ _ _ (by decide), Nat.testBit_mod_two_pow]
  simp [setBit, hlt, Nat.testBit_or, Nat.testBit_shiftLeft]

/-- A one-bit field reads as it was written. -/
theorem Dev.flag_putB_same (d : Dev) (f : Fld) (i : Nat) (b : Bool) (hw : f.width = 1) (h : f.lo + f.width ≤ 40) :
    (d.putB f i b).flag f i = b := by
  unfold Dev.flag Dev.putB
  rw [Dev.get_put_same _ _ _ _ h, hw]
  cases b <;> rfl

section Record

variable (d : Dev) (e pc port kind : Nat)

theorem engStat_ne_evt : F.ENG_STAT_AF.at_ e ≠ F.EVT_STAT.at_ (96 / 32) := by
  simp only [Fld.at_, F.ENG_STAT_AF, F.EVT_STAT]; omega

theorem engAflt_ne_evt : F.ENG_AFLT.at_ e ≠ F.EVT_STAT.at_ (96 / 32) := by
  simp only [Fld.at_, F.ENG_AFLT, F.EVT_STAT]; omega

theorem engStat_ne_aflt : F.ENG_STAT_AF.at_ e ≠ F.ENG_AFLT.at_ e := by
  simp only [Fld.at_, F.ENG_STAT_AF, F.ENG_AFLT]; omega

theorem Dev.firstFault_af : (d.firstFault e pc port kind).flag F.ENG_STAT_AF e = true := by
  have h : (d.firstFault e pc port kind).get F.ENG_STAT_AF e = (d.putB F.ENG_STAT_AF e true).get F.ENG_STAT_AF e := by
    unfold Dev.firstFault
    rw [Dev.get_raise_ne _ _ _ _ (engStat_ne_evt e),
      Dev.get_put_other _ F.ENG_AFLT_KIND _ _ _ _ (by decide) (.inl (engStat_ne_aflt e)),
      Dev.get_put_other _ F.ENG_AFLT_PORT _ _ _ _ (by decide) (.inl (engStat_ne_aflt e)),
      Dev.get_put_other _ F.ENG_AFLT_PC _ _ _ _ (by decide) (.inl (engStat_ne_aflt e))]
  unfold Dev.flag
  rw [h]
  exact Dev.flag_putB_same d F.ENG_STAT_AF e true rfl (by decide)

theorem Dev.firstFault_pc :
    (d.firstFault e pc port kind).get F.ENG_AFLT_PC e = pc % 2 ^ F.ENG_AFLT_PC.width := by
  unfold Dev.firstFault
  rw [Dev.get_raise_ne _ _ F.ENG_AFLT_PC _ (engAflt_ne_evt e),
    Dev.get_put_other _ F.ENG_AFLT_KIND _ _ _ _ (by decide) (.inr (by decide)),
    Dev.get_put_other _ F.ENG_AFLT_PORT _ _ _ _ (by decide) (.inr (by decide)), Dev.get_put_same _ _ _ _ (by decide)]

theorem Dev.firstFault_port :
    (d.firstFault e pc port kind).get F.ENG_AFLT_PORT e = port % 2 ^ F.ENG_AFLT_PORT.width := by
  unfold Dev.firstFault
  rw [Dev.get_raise_ne _ _ F.ENG_AFLT_PORT _ (engAflt_ne_evt e),
    Dev.get_put_other _ F.ENG_AFLT_KIND _ _ _ _ (by decide) (.inr (by decide)), Dev.get_put_same _ _ _ _ (by decide)]

theorem Dev.firstFault_kind :
    (d.firstFault e pc port kind).get F.ENG_AFLT_KIND e = kind % 2 ^ F.ENG_AFLT_KIND.width := by
  unfold Dev.firstFault
  rw [Dev.get_raise_ne _ _ F.ENG_AFLT_KIND _ (engAflt_ne_evt e), Dev.get_put_same _ _ _ _ (by decide)]

theorem Dev.firstFault_keepsRegs :
    d.keepsRegs (d.firstFault e pc port kind) [F.ENG_STAT.at_ e, F.ENG_AFLT.at_ e, F.EVT_STAT.at_ 3] := by
  intro x hx
  simp only [List.mem_cons, List.not_mem_nil, or_false, not_or] at hx
  obtain ⟨hstat, haflt, hevt⟩ := hx
  unfold Dev.firstFault
  rw [Dev.reg_raise_ne _ _ _ hevt, Dev.reg_put_ne _ F.ENG_AFLT_KIND _ _ _ haflt,
    Dev.reg_put_ne _ F.ENG_AFLT_PORT _ _ _ haflt, Dev.reg_put_ne _ F.ENG_AFLT_PC _ _ _ haflt]
  exact Dev.reg_put_ne _ _ _ _ _ hstat

end Record

/-- What an access fault does, whatever the engine (R186). -/
theorem Dev.accessFault_spec (d : Dev) (e port kind : Nat) :
    let b := d.accessFault e port kind
    b.flag F.ENG_STAT_AF e = true ∧ (b.run e).flag fAf = true ∧
    b = { d with regs := b.regs, engs := b.engs } ∧
    (∀ j, j ≠ e → b.eng j = d.eng j) ∧
    b.eng e = { d.eng e with run := { d.run e with flags := (b.run e).flags, faulted := true } } ∧
    (∀ n, n < 16 → n ≠ fAf → (b.run e).flag n = (d.run e).flag n) ∧
    ((d.run e).faulted = true → d.keepsRegs b [F.ENG_STAT.at_ e]) ∧
    ((d.run e).faulted = false →
      b.get F.ENG_AFLT_PC e = (d.run e).pc % 2 ^ F.ENG_AFLT_PC.width ∧
      b.get F.ENG_AFLT_PORT e = port % 2 ^ F.ENG_AFLT_PORT.width ∧
      b.get F.ENG_AFLT_KIND e = kind % 2 ^ F.ENG_AFLT_KIND.width ∧ b.ev 96 = true ∧
      d.keepsRegs b [F.ENG_STAT.at_ e, F.ENG_AFLT.at_ e, F.EVT_STAT.at_ 3]) := by
  intro b
  have heng : b.eng e = { d.eng e with run := { (d.run e).setFlag fAf true with faulted := true } } :=
    d.accessFault_eng e port kind
  have hflag : ∀ n, (b.run e).flag n = if n = fAf then true else (d.run e).flag n := fun n => by
    unfold Dev.run
    rw [heng]
    exact EngRun.flag_setFlag _ _ _ _ (by decide)
  have hregs := d.accessFault_regs e port kind
  refine ⟨?_, by rw [hflag, if_pos rfl], d.accessFault_frame e port kind, fun j hj => d.accessFault_other e port kind j hj, ?_,
    fun n _ hn => by rw [hflag, if_neg hn], fun hf => ?_, fun hf => ?_⟩
  · by_cases hf : (d.run e).faulted = true
    · rw [if_pos hf] at hregs
      unfold Dev.flag
      rw [Dev.get_congr hregs]
      exact Dev.flag_putB_same d F.ENG_STAT_AF e true rfl (by decide)
    · rw [if_neg hf] at hregs
      unfold Dev.flag
      rw [Dev.get_congr hregs]
      exact d.firstFault_af e _ port kind
  · unfold Dev.run
    rw [heng]
    rfl
  · rw [if_pos hf] at hregs
    intro x hx
    rw [Dev.reg_congr hregs]
    exact Dev.reg_put_ne _ _ _ _ _ (List.ne_of_not_mem_cons hx)
  · rw [if_neg (by rw [hf]; decide)] at hregs
    refine ⟨?_, ?_, ?_, ?_, fun x hx => ?_⟩
    · rw [Dev.get_congr hregs, Dev.firstFault_pc]
    · rw [Dev.get_congr hregs, Dev.firstFault_port]
    · rw [Dev.get_congr hregs, Dev.firstFault_kind]
    · unfold Dev.ev Dev.bit
      rw [Dev.get_congr hregs]
      exact Dev.ev_raise _ 96
    · rw [Dev.reg_congr hregs]
      exact d.firstFault_keepsRegs e _ port kind x hx

end Sys2Proof.Machine
end

section
/-! SUPPORT. LD, ST and PISTEP: instructions that work on data memory (R214, R227). -/

namespace Sys2Proof.Machine

/-! ### An update of a run after an update -/

/-- A second write of a key takes the place of a first one that has left an entry. -/
theorem tset_tset_of_ne {α : Type} [DecidableEq α] (d : Nat → α) (t : List (Nat × α)) (i : Nat) {v : α} (w : α)
    (hv : v ≠ d i) : tset d (tset d t i v) i w = tset d t i w := by
  induction t with
  | nil => simp [tset, hv, tdrop]
  | cons p t ih =>
    obtain ⟨k, x⟩ := p
    by_cases hlt : i < k
    · simp [tset, hlt, hv, tdrop, Nat.not_le.mpr hlt]
    · by_cases heq : i = k
      · simp [tset, heq ▸ hv, heq]
      · simp [tset, hlt, heq, ih]

/-- Two updates of a run are one where the first leaves the run live, so that the engine is in the table. -/
theorem Dev.modRun_modRun (d : Dev) (e : Nat) (f g : EngRun → EngRun) (h : (f (d.run e)).live = true) :
    (d.modRun e f).modRun e g = d.modRun e fun r => g (f r) := by
  have hne : { d.eng e with run := f (d.eng e).run } ≠ (default : EngUnit) := fun h0 => by
    have : (f (d.eng e).run).live = false := congrArg (fun u : EngUnit => u.run.live) h0
    rw [show (f (d.eng e).run).live = true from h] at this
    exact Bool.noConfusion this
  have heng : (d.modRun e f).eng e = { d.eng e with run := f (d.eng e).run } := by rw [Dev.modRun_eng, if_pos rfl]
  show { d with engs := uset (uset d.engs e _) e { (d.modRun e f).eng e with run := g ((d.modRun e f).eng e).run } } = _
  rw [heng]
  exact congrArg (fun t => { d with engs := t }) (tset_tset_of_ne (fun _ => default) _ _ _ hne)

/-! ### The post-increment (R214) -/

/-- Without X[21] no pointer changes, with it Pn alone. -/
theorem EngRun.postInc_P_of_notMem (r : EngRun) (i : Issue) {j : Nat} (hj : j ∉ if i.x.getLsbD 21 then [i.bn] else []) :
    (r.postInc i.bn i.x21).P j = r.P j := by
  rw [EngRun.P_postInc, if_neg]
  rintro ⟨h21, rfl⟩
  rw [if_pos (show i.x.getLsbD 21 = true from h21)] at hj
  exact hj (List.mem_singleton_self _)

theorem EngRun.postInc_P_self (r : EngRun) {i : Issue} (h21 : i.x.getLsbD 21 = true) :
    (r.postInc i.bn i.x21).P i.bn = (r.P i.bn + 1) % 65536 := by
  rw [EngRun.P_postInc, if_pos ⟨h21, rfl⟩]

/-! ### What LD and ST do -/

/-- The work of LD at address `a`. -/
def Dev.ldWork (i : Issue) (a : Nat) (d : Dev) : Dev :=
  if 0xFFF < a then (d.accessFault i.eng 0 6).modRun i.eng fun r => (r.setW i.dn 0).postInc i.bn i.x21
  else d.dataAccess i a fun d => d.modRun i.eng fun r => (r.setW i.dn (d.dmem i.eng a)).postInc i.bn i.x21

theorem exec_ld (s : State) (i : Issue) :
    exec (.ld i) s =
      .next { s with dev := (s.dev.issue 0x10 i [] 1 (Dev.ldWork i ((s.dev.run i.eng).dataAddr i))).settle } := rfl

/-- The work of ST at address `a`. -/
def Dev.stWork (i : Issue) (a : Nat) (d : Dev) : Dev :=
  if 0xFFF < a then (d.accessFault i.eng 0 6).modRun i.eng fun r => r.postInc i.bn i.x21
  else d.dataAccess i a fun d =>
    (d.setDmem i.eng a ((d.run i.eng).W i.an)).modRun i.eng fun r =>
      (r.out_ .st a ((d.run i.eng).W i.an)).postInc i.bn i.x21

theorem exec_st (s : State) (i : Issue) :
    exec (.st i) s =
      .next { s with dev := (s.dev.issue 0x11 i [i.an] 1 (Dev.stWork i ((s.dev.run i.eng).dataAddr i))).settle } := rfl

/-- A clean data word lets the access go on (R178). -/
theorem Dev.dataAccess_ok {d : Dev} {i : Issue} (h : i.data = .ok) (a : Nat) (body : Dev → Dev) :
    d.dataAccess i a body = body d := by
  unfold Dev.dataAccess
  rw [h]

/-- An instruction that works on nothing beyond its run. -/
theorem RetiresOn.toRetires {s : State} {c : Instr} {i : Issue} {srcs ws fs zs ps : List Nat} {n : Nat}
    {res : EngRun → EngRun → Prop} (h : RetiresOn s s.dev c i srcs ws fs zs ps n res) :
    Retires s c i srcs ws fs zs ps n res := h

section Memory

variable {s : State} {i : Issue} {a : Nat}

/-- LD from data memory. -/
theorem retires_ld (h : Ready s.dev i []) (hl : fieldsOk 0x10 i = true) (ha : (s.dev.run i.eng).dataAddr i = a)
    (hlow : a ≤ 0xFFF) (hok : i.data = .ok) :
    Retires s (.ld i) i [] [i.dn] [] [] (if i.x.getLsbD 21 then [i.bn] else []) 1 fun r b =>
      b.W i.dn = s.dev.dmem i.eng a ∧ (i.x.getLsbD 21 = true → b.P i.bn = (r.P i.bn + 1) % 65536) := by
  refine RetiresOn.toRetires (retires_on (op := 0x10) (B := s.dev.modRun i.eng fun r => { r with cyc := r.issueAt [] + 1 })
    (Dev.ldWork i a) (fun r => (r.setW i.dn (s.dev.dmem i.eng a)).postInc i.bn i.x21) h rfl hl (ha ▸ exec_ld s i) ?_ rfl
    (fun j hj => by rw [Dev.modRun_eng, if_neg hj]) (by rw [Dev.modRun_eng, if_pos rfl]; rfl) h.live rfl rfl rfl rfl
    (fun r => by simp) (fun r => by simp) (fun r j hj => ?_) (fun r j _ _ => by simp) (fun r j _ _ => by simp)
    (fun r j hj => (EngRun.postInc_P_of_notMem _ i hj).trans rfl) ?_)
  · have hdmem : (s.dev.modRun i.eng fun r => { r with cyc := r.issueAt [] + 1 }).dmem i.eng a = s.dev.dmem i.eng a := by
      unfold Dev.dmem
      rw [Dev.modRun_eng, if_pos rfl]; rfl
    rw [Dev.ldWork, if_neg (by omega), Dev.dataAccess_ok hok, hdmem]
  · simp [EngRun.W_setW, List.ne_of_not_mem_cons hj]
  · refine ⟨by simp [EngRun.W_setW], fun h21 => ?_⟩
    rw [EngRun.next_P, EngRun.postInc_P_self _ h21]; rfl

/-- LD from beyond data memory. -/
theorem retiresOn_ld_fault (h : Ready s.dev i []) (hl : fieldsOk 0x10 i = true) (ha : (s.dev.run i.eng).dataAddr i = a)
    (hhigh : 0xFFF < a) :
    RetiresOn s (s.dev.accessFault i.eng 0 6) (.ld i) i [] [i.dn] [] [] (if i.x.getLsbD 21 then [i.bn] else []) 1 fun r b =>
      b.W i.dn = 0 ∧ (i.x.getLsbD 21 = true → b.P i.bn = (r.P i.bn + 1) % 65536) := by
  refine retires_fault (op := 0x10) (Dev.ldWork i a) (fun r => (r.setW i.dn 0).postInc i.bn i.x21) h rfl hl
    (ha ▸ exec_ld s i) (by rw [Dev.ldWork, if_pos hhigh]) (fun r => by simp) (fun r => by simp) (fun r j hj => ?_)
    (fun r j => by simp) (fun r j => by simp) (fun r j hj => (EngRun.postInc_P_of_notMem _ i hj).trans rfl)
    (fun x hP => ⟨?_, fun h21 => ?_⟩)
  · simp [EngRun.W_setW, List.ne_of_not_mem_cons hj]
  · simp [EngRun.W_setW]
  · rw [EngRun.next_P, EngRun.postInc_P_self _ h21, EngRun.setW_P, hP]

/-- The device after a store of `w` with its item of the output stream (R214, R277). -/
def Dev.storeLocal (d : Dev) (e a : Nat) (w : Word) : Dev := (d.setDmem e a w).modRun e fun r => r.out_ .st a w

theorem Dev.storeLocal_eng (d : Dev) (e a j : Nat) (w : Word) :
    (d.storeLocal e a w).eng j =
      if j = e then { d.eng e with dmem := uset (d.eng e).dmem ((d.run e).dataIdx e a) w, run := (d.run e).out_ .st a w }
      else d.eng j := by
  unfold Dev.storeLocal
  rw [Dev.modRun_eng, Dev.setDmem_eng, Dev.setDmem_eng, if_pos rfl]
  split <;> rfl

theorem Dev.storeLocal_run (d : Dev) (e a : Nat) (w : Word) : (d.storeLocal e a w).run e = (d.run e).out_ .st a w := by
  unfold Dev.run
  rw [Dev.storeLocal_eng, if_pos rfl]; rfl

/-- ST to data memory. -/
theorem retiresOn_st (h : Ready s.dev i [i.an]) (hl : fieldsOk 0x11 i = true) (ha : (s.dev.run i.eng).dataAddr i = a)
    (hlow : a ≤ 0xFFF) (hok : i.data = .ok) :
    RetiresOn s (s.dev.storeLocal i.eng a ((s.dev.run i.eng).W i.an)) (.st i) i [i.an] [] [] []
      (if i.x.getLsbD 21 then [i.bn] else []) 1 fun r b =>
        i.x.getLsbD 21 = true → b.P i.bn = (r.P i.bn + 1) % 65536 := by
  set w := (s.dev.run i.eng).W i.an with hw
  set M := s.dev.modRun i.eng fun r => { r with cyc := r.issueAt [i.an] + 1 } with hM
  have hMrun : M.run i.eng = { s.dev.run i.eng with cyc := (s.dev.run i.eng).issueAt [i.an] + 1 } := by
    rw [hM, Dev.modRun_run, if_pos rfl]
  have hrun := s.dev.storeLocal_run i.eng a w
  refine retires_on (op := 0x11) (B := M.storeLocal i.eng a w) (Dev.stWork i a) (fun r => r.postInc i.bn i.x21) h rfl hl
    (ha ▸ exec_st s i) ?_ rfl (fun j hj => ?_) ?_ ?_ ?_ ?_ ?_ ?_ (fun r => by simp) (fun r => by simp) (fun r j _ => by simp)
    (fun r j _ _ => by simp) (fun r j _ _ => by simp) (fun r j hj => EngRun.postInc_P_of_notMem _ i hj) (fun h21 => ?_)
  · rw [Dev.stWork, if_neg (by omega), Dev.dataAccess_ok hok, Dev.storeLocal, Dev.modRun_modRun]
    · rw [← hM, hMrun]; rfl
    · rw [Dev.setDmem_run, hMrun]; exact h.live
  · rw [Dev.storeLocal_eng, Dev.storeLocal_eng, if_neg hj, if_neg hj, hM, Dev.modRun_eng, if_neg hj]
  · rw [hrun, Dev.storeLocal_eng, Dev.storeLocal_eng, if_pos rfl, if_pos rfl, hMrun, hM, Dev.modRun_eng, if_pos rfl]; rfl
  · rw [hrun]; exact h.live
  · rw [hrun]; rfl
  · rw [hrun]; rfl
  · rw [hrun]; rfl
  · rw [hrun]; rfl
  · rw [EngRun.next_P, EngRun.postInc_P_self _ h21, hrun]; rfl

/-- ST beyond data memory. -/
theorem retiresOn_st_fault (h : Ready s.dev i [i.an]) (hl : fieldsOk 0x11 i = true)
    (ha : (s.dev.run i.eng).dataAddr i = a) (hhigh : 0xFFF < a) :
    RetiresOn s (s.dev.accessFault i.eng 0 6) (.st i) i [i.an] [] [] [] (if i.x.getLsbD 21 then [i.bn] else []) 1 fun r b =>
      i.x.getLsbD 21 = true → b.P i.bn = (r.P i.bn + 1) % 65536 := by
  refine retires_fault (op := 0x11) (Dev.stWork i a) (fun r => r.postInc i.bn i.x21) h rfl hl
    (ha ▸ exec_st s i) (by rw [Dev.stWork, if_pos hhigh]) (fun r => by simp) (fun r => by simp) (fun r j _ => by simp)
    (fun r j => by simp) (fun r j => by simp) (fun r j hj => EngRun.postInc_P_of_notMem _ i hj) (fun x hP h21 => ?_)
  rw [EngRun.next_P, EngRun.postInc_P_self _ h21, hP]

end Memory

/-- Settles O11: LD and ST inside and beyond data memory, and the access fault itself. -/
theorem localDataAndAccessFaults : Obligations.LocalDataAndAccessFaults := by
  unfold Obligations.LocalDataAndAccessFaults
  refine ⟨fun s i hb hx => ?_, fun d e port kind _ => d.accessFault_spec e port kind⟩
  intro e r a ps inc
  have haddr : r.dataAddr i = a := r.dataAddr_eq i
  have hdata := Issue.dataOk_of hb hx
  refine ⟨fun h ha => ?ld, fun h hd => ?st⟩
  case ld =>
    have hl : fieldsOk 0x10 i = true := by simp [fieldsOk, Issue.noA_zero ha, hdata]
    exact ⟨fun hlow hok => retires_ld h hl haddr hlow hok, fun hhigh => retiresOn_ld_fault h hl haddr hhigh⟩
  case st =>
    have hl : fieldsOk 0x11 i = true := by simp [fieldsOk, Issue.noD_zero hd, hdata]
    refine ⟨fun hlow hok => ⟨retiresOn_st h hl haddr hlow hok, fun x => ?_⟩,
      fun hhigh => retiresOn_st_fault h hl haddr hhigh⟩
    show uget ((s.dev.storeLocal e a (r.W i.an)).eng e).dmem x = _
    rw [Dev.storeLocal_eng, if_pos rfl]
    exact uget_uset ..

end Sys2Proof.Machine
end

section
/-! SUPPORT. The PI step (R227). -/

namespace Sys2Proof.Machine

/-! ### The step as arithmetic -/

/-- A held integrator is not clamped; one that moves is clamped where the sum lies outside the limit (R227). -/
theorem integrator_clamped (hold : Bool) (i l x : Int) :
    (!hold && (if hold = true then i else clampI (-l) l x) != x) = (!hold && decide (x < -l ∨ l < x)) := by
  cases hold
  · exact clampI_bne _ _ _
  · rfl

/-- A clamp to a limit that is never negative. -/
theorem clampI_limit (lim x : Int) :
    clampI (-max lim 0) (max lim 0) x = max (-max lim 0) (min (max lim 0) x) := clampI_eq (by omega)

/-- The limit of a PI block as a word's value, never negative. -/
theorem limit_range (w : Word) : 0 ≤ max w.toInt 0 ∧ max w.toInt 0 < 2 ^ 39 := by
  have := w.toInt_lt
  omega

/-- The output of the PI step fits into a word. -/
theorem piStep_output_range (kp ki i e : Int) (lim : Word) :
    -(2 ^ 39) ≤ (piStep kp ki lim.toInt i e).1 ∧ (piStep kp ki lim.toInt i e).1 < 2 ^ 39 := by
  obtain ⟨h0, hl⟩ := limit_range lim
  exact clampI_range _ h0 hl

/-- The new integrator fits into a word: it is the old one or lies within the limit. -/
theorem piStep_integrator_range (kp ki e : Int) (lim i : Word) :
    -(2 ^ 39) ≤ (piStep kp ki lim.toInt i.toInt e).2.1 ∧ (piStep kp ki lim.toInt i.toInt e).2.1 < 2 ^ 39 := by
  obtain ⟨h0, hl⟩ := limit_range lim
  unfold piStep
  simp only []
  split
  · exact ⟨i.le_toInt, i.toInt_lt⟩
  · exact clampI_range _ h0 hl

/-! ### The instruction -/

/-- The PI step on the block at address `a`. -/
def Dev.piAt (d : Dev) (i : Issue) (a : Nat) : Int × Int × Bool :=
  piStep (d.dmem i.eng a).toInt (d.dmem i.eng (a + 1)).toInt (d.dmem i.eng (a + 2)).toInt (d.dmem i.eng (a + 3)).toInt
    ((d.run i.eng).WI i.an)

/-- The work of PISTEP on the block at address `a`. -/
def Dev.piWork (i : Issue) (a : Nat) (d : Dev) : Dev :=
  if 0xFFF < a + 3 then (d.accessFault i.eng 0 6).modRun i.eng fun r => (r.setW i.dn 0).vs false
  else d.dataAccess i a fun d =>
    (d.setDmem i.eng (a + 3) (wordI (d.piAt i a).2.1)).modRun i.eng fun r =>
      (r.setW i.dn (wordI (d.piAt i a).1)).vs (d.piAt i a).2.2

theorem exec_pistep (s : State) (i : Issue) :
    exec (.pistep i) s = .next { s with dev :=
      (s.dev.issue 0x37 i [i.an] 6 (Dev.piWork i (((s.dev.run i.eng).P i.bn + i.xn % 4096) % 65536))).settle } := rfl

section

variable {s : State} {i : Issue} {a : Nat}

/-- PISTEP on a block within data memory retires with the step's output, and its integrator in the block's last word. -/
theorem retiresOn_pistep (h : Ready s.dev i [i.an]) (hl : fieldsOk 0x37 i = true)
    (ha : ((s.dev.run i.eng).P i.bn + i.xn % 4096) % 65536 = a) (hlow : a + 3 ≤ 0xFFF) (hok : i.data = .ok) :
    RetiresOn s (s.dev.setDmem i.eng (a + 3) (wordI (s.dev.piAt i a).2.1)) (.pistep i) i [i.an] [i.dn] [fV, fSat] [] [] 6
      fun r b => b.W i.dn = wordI (s.dev.piAt i a).1 ∧ b.clampedVs r (s.dev.piAt i a).2.2 := by
  set M := s.dev.modRun i.eng fun r => { r with cyc := r.issueAt [i.an] + 6 } with hM
  have hpi : M.piAt i a = s.dev.piAt i a := by
    unfold Dev.piAt Dev.dmem Dev.run
    rw [hM, Dev.modRun_eng, if_pos rfl]; rfl
  refine retires_on (op := 0x37) (B := M.setDmem i.eng (a + 3) (wordI (s.dev.piAt i a).2.1)) (Dev.piWork i a)
    (fun r => (r.setW i.dn (wordI (s.dev.piAt i a).1)).vs (s.dev.piAt i a).2.2) h rfl hl (ha ▸ exec_pistep s i) ?_ rfl
    (fun j hj => ?_) ?_ ?_ ?_ ?_ ?_ ?_ (fun r => by simp) (fun r => by simp) (fun r j hj => ?_) (fun r j _ hj => ?_)
    (fun r j _ _ => by simp) (fun r j _ => by simp) ?_
  · rw [← hM, Dev.piWork, if_neg (by omega), Dev.dataAccess_ok hok, hpi]
  · rw [Dev.setDmem_eng, Dev.setDmem_eng, if_neg hj, if_neg hj, hM, Dev.modRun_eng, if_neg hj]
  · rw [Dev.setDmem_eng, Dev.setDmem_eng, if_pos rfl, if_pos rfl, Dev.setDmem_run, hM, Dev.modRun_eng, if_pos rfl,
      Dev.modRun_run, if_pos rfl]; rfl
  · rw [Dev.setDmem_run]; exact h.live
  · rw [Dev.setDmem_run]
  · rw [Dev.setDmem_run]
  · rw [Dev.setDmem_run]
  · rw [Dev.setDmem_run]
  · simp [EngRun.W_setW, List.ne_of_not_mem_cons hj]
  · rw [EngRun.vs_flag_of_notMem _ _ _ hj]; rfl
  · rw [Dev.setDmem_run]
    refine ⟨by simp [EngRun.W_setW], (EngRun.next_clampedVs ..).mpr (EngRun.vs_clampedVs (fun j => ?_) _)⟩
    rfl

/-- PISTEP on a block that reaches beyond data memory. -/
theorem retiresOn_pistep_fault (h : Ready s.dev i [i.an]) (hl : fieldsOk 0x37 i = true)
    (ha : ((s.dev.run i.eng).P i.bn + i.xn % 4096) % 65536 = a) (hhigh : 0xFFF < a + 3) :
    RetiresOn s (s.dev.accessFault i.eng 0 6) (.pistep i) i [i.an] [i.dn] [fV] [] [] 6
      fun _ b => b.W i.dn = 0 ∧ b.flag fV = false := by
  set M := s.dev.modRun i.eng fun r => { r with cyc := r.issueAt [i.an] + 6 } with hM
  have hbase := s.dev.accessFault_eng i.eng 0 6
  have hrun : (s.dev.accessFault i.eng 0 6).run i.eng = { (s.dev.run i.eng).setFlag fAf true with faulted := true } := by
    unfold Dev.run; rw [hbase]
  refine retires_on (op := 0x37) (B := M.accessFault i.eng 0 6) (Dev.piWork i a) (fun r => (r.setW i.dn 0).setFlag fV false)
    h rfl hl (ha ▸ exec_pistep s i) ?_ ?_ (fun j hj => ?_) ?_ ?_ ?_ ?_ ?_ ?_ (fun r => by simp) (fun r => by simp)
    (fun r j hj => ?_) (fun r j _ hj => ?_) (fun r j _ _ => by simp) (fun r j _ => by simp) ?_
  · rw [← hM, Dev.piWork, if_pos hhigh]; rfl
  · rw [hM, Dev.accessFault_modRun _ _ _ _ _ rfl rfl]
  · rw [Dev.accessFault_other _ _ _ _ _ hj, Dev.accessFault_other _ _ _ _ _ hj, hM, Dev.modRun_eng, if_neg hj]
  · rw [Dev.accessFault_eng, hbase, hM, Dev.modRun_eng, if_pos rfl, hrun]; rfl
  · rw [hrun]; exact h.live
  · rw [hrun]; rfl
  · rw [hrun]; rfl
  · rw [hrun]; rfl
  · rw [hrun]; rfl
  · simp [EngRun.W_setW, List.ne_of_not_mem_cons hj]
  · rw [EngRun.flag_setFlag _ _ _ _ fV_lt, if_neg (List.ne_of_not_mem_cons hj)]; rfl
  · exact ⟨by simp [EngRun.W_setW], by simp [EngRun.flag_setFlag _ _ _ _ fV_lt]⟩

end

end Sys2Proof.Machine

namespace Sys2Proof

open Machine

/-- Settles O8: the block inside data memory by the PI step as arithmetic, the block beyond it as an access fault. -/
theorem piStep : Obligations.PiStep := by
  unfold Obligations.PiStep
  intro s i h hb hx e base cyc hf
  have hxn : i.xn % 4096 = i.x.toNat := Nat.mod_eq_of_lt hx
  have ha : ((s.dev.run i.eng).P i.bn + i.xn % 4096) % 65536 = base := by rw [hxn]
  have hl : fieldsOk 0x37 i = true := by
    simp only [fieldsOk, Bool.and_eq_true]
    exact ⟨decide_eq_true hb, decide_eq_true hx⟩
  refine ⟨fun hlow hok => ?_, fun hhigh => ?_⟩
  · obtain ⟨d, hexec, hstep, hseq, hw, hvs⟩ := retiresOn_pistep h hl ha hlow hok hf
    refine ⟨d, _, hexec, hstep, hseq, ?_⟩
    intro word clip err l p ie it u hold inew o
    obtain ⟨hlo, hhi⟩ := piStep_integrator_range (word 0) (word 1) err (s.dev.dmem e (base + 2)) (s.dev.dmem e (base + 3))
    obtain ⟨hlo', hhi'⟩ := piStep_output_range (word 0) (word 1) (word 3) err (s.dev.dmem e (base + 2))
    refine ⟨(toInt_wordI hlo hhi).trans ?_, ?_, ?_⟩
    · simp only [Machine.piStep, sat, satP32_eq, fmul, rnd_31, clampI_limit, decide_eq_true_eq]
      rfl
    · refine (congrArg BitVec.toInt hw).trans ((toInt_wordI hlo' hhi').trans ?_)
      simp only [Machine.piStep, sat, satP32_eq, fmul, rnd_31, clampI_limit, decide_eq_true_eq]
      rfl
    · simp only [Dev.piAt, Machine.piStep, sat, satP32_eq, fmul, rnd_31, integrator_clamped, clampI_bne] at hvs
      simp only [clampI_limit, decide_eq_true_eq] at hvs
      exact hvs
  · obtain ⟨d, hexec, hstep, hseq, hw, hv⟩ := retiresOn_pistep_fault h hl ha hhigh hf
    exact ⟨d, hexec, hstep, hseq, hw, hv⟩

end Sys2Proof
end
